-- ==== Sys2Proof/Word.lean ====
section
/-! DEFINITION. The word types of the KA-24 (00_scope.md section 5, 12_formats.md): bytes, the 16-bit words of the
exchange memory, 32-bit quantities, 64-bit UIDs and challenges, 128-bit keys; and the index types of the things the
part has a fixed number of. -/
namespace Sys2Proof

abbrev Byte := BitVec 8
abbrev Word16 := BitVec 16
abbrev Word32 := BitVec 32
/-- A part identity (UID), a challenge or a response: 64 bits. -/
abbrev Word64 := BitVec 64
/-- A class key, the store key or a part key: 128 bits (R26, R166). -/
abbrev Key := BitVec 128

/-- A fitting position, 0..23 (R1). -/
abbrev PosId := Fin 24
/-- A sense channel, 0..23 (R77). -/
abbrev ChannelId := Fin 24
/-- A task slot, 0..7 (R182). -/
abbrev SlotId := Fin 8
/-- A machine cycle input CYC0..CYC7 (R97). -/
abbrev InputId := Fin 8
/-- A permit group, 0..7 (R153). -/
abbrev GroupId := Fin 8
/-- A key slot, 0..15 (R166). -/
abbrev KeySlotId := Fin 16
/-- A watched word by its index: 0..23 config editions, 24 the settings edition, 25..32 owner words (section 11.2). -/
abbrev WatchId := Fin 33

end Sys2Proof
end

