-- ==== Sys2Proof/Syntax.lean ====
section
/-! DEFINITION. The commands of the KA-24: one constructor for every row of spec/opcode_table.json, with the operands
that the outside world brings (an address, a value, a level, the edges seen on a wire). The operands of a task, of a
configuration half and of the settings record stand in the exchange memory and are read when their watch entry is
taken (R176), so those rows carry none. -/
namespace Sys2Proof

/-- The two tag lines (section 3). -/
inductive LineId where
  | A | B
  deriving DecidableEq, Repr

/-- What the controller sees of a reply's pace byte (R35): the four spans between the five falling edges, in units
of 62.5 ns, and the level at 1.5 x T8 / 8 after the fifth edge. A fifth edge that has not come is a span that takes
the sum past 1 ms. -/
structure PaceEdges where
  span1 : Nat
  span2 : Nat
  span3 : Nat
  span4 : Nat
  stopHigh : Bool
  deriving DecidableEq, Repr

/-- One falling edge of a reply after its pace byte (R31): the time from the end of the previous character, in units
of 62.5 ns, and the ten samples taken at 0.5 b, 1.5 b, ..., 9.5 b after it (bit `i` is the sample at `i + 0.5` b). -/
structure RxEdge where
  gap : Nat
  samples : BitVec 10
  deriving DecidableEq, Repr

/-- A command of the block. -/
inductive Instr where
  -- supply, reset and start-up
  | powerOn
  | resetNAssert
  | resetNRelease (inhibitN : Bool) (cyc : BitVec 8)
  | startupCheckEnd (damaged : BitVec 16)
  -- device commands and registers
  | restart
  | stop
  | resume
  | attentionWrite (value : Word16)
  | attentionEnableWrite (value : Word16)
  | registerWriteOther (register : BitVec 2) (value : Word16)
  -- host writes to the exchange memory
  | hostWordWrite (word : BitVec 13) (value : Word16)
  | watchedWordWrite (index : WatchId) (value : Word16)
  -- watch entries taken by the task unit
  | configEditionTaken
  | settingsEditionTaken
  | taskBadKind
  | cancel
  | ownerWordMisuse
  | inspect
  | tagRead
  | tagWrite
  | lineReset
  | calLoad
  | calibrate
  | usageCommit
  | retiredImport
  | retiredExport
  | retiredRemove
  | release
  | rulesLoad
  | permitHold
  | permitFree
  | classLoad
  | classDrop
  | keyLoad
  | keyErase
  | keysUnlock
  | keysLock
  -- key store
  | keyTaskServe
  | keyWriteEnd
  -- tag lines
  | lineTransactionStart (line : LineId)
  | readbackFailure (line : LineId) (bit : Nat) (level : Bool)
  | callEnd (line : LineId)
  | replyWindowExpiry (line : LineId)
  | replyStart (line : LineId) (pace : PaceEdges)
  | replyAttemptError (line : LineId) (edges : List RxEdge)
  | replyComplete (line : LineId) (edges : List RxEdge)
  | lineRestEnd (line : LineId)
  | quietSent (line : LineId)
  | wakeSent (line : LineId)
  | lineStuckEntry (line : LineId)
  | lineStuckRelease (line : LineId)
  -- measurement unit
  | measurementStart
  | settlingEnd
  | samplingEnd (samples : Vector Word16 16)
  -- timers and inputs
  | intervalTimerExpiry (position : PosId)
  | cyclePulse (input : InputId)
  | inhibitNChange (level : Bool)
  | stateHalfPostingDelay (position : PosId)
  | deviceBlockPostingDelay
  | powerLoss
  | cycleInputAcceptedLow (input : InputId)
  deriving DecidableEq, Repr

end Sys2Proof
end

