-- ==== Sys2Proof/Config.lean ====
section
/-! DEFINITION. What the manual leaves open and the model keeps open: constants with no body. Nothing in Lean can
evaluate them, so whatever is proved holds for every value. Each is named in the assumption log. -/
namespace Sys2Proof.Config

/-- The `n`-th value drawn from the on-chip noise source (R63). Log 5. -/
opaque noise : Nat → Word64

/-- KD, the fixed part key derivation function: class key, UID, part key (R26, R173). Log 6. -/
opaque partKey : Key → Word64 → Key

/-- RF, the fixed response function: part key, challenge, usage counter (R26, R173). Log 6. -/
opaque response : Key → Word64 → Word32 → Word64

/-- Byte `i` of the data of the `n`-th task result whose data no rule states. Log 7. -/
opaque unstatedByte : Nat → Nat → Byte

/-- Whether the start-up clear of the exchange memory is still running at the `n`-th draw (R189 step 2). Log 8. -/
opaque clearRunning : Nat → Bool

/-- Whether a host write met by the running clear is overwritten, at the `n`-th draw (R189 step 2). Log 8. -/
opaque clearOverwrites : Nat → Bool

/-- Whether a host write to a watched word met by the running clear queues its index, at the `n`-th draw. Log 8. -/
opaque clearQueues : Nat → Bool

/-- Which of two positions acts first where the manual lets simultaneous requests enter in either order (R46, R79),
at the `n`-th draw. Log 9. -/
opaque actsBefore : Nat → PosId → PosId → Bool

/-- Whether a RELEASE or RETIRED_REMOVE at the head of the watch queue is taken between a cycle's finding RETIRED and its
hand-off, at the `n`-th draw (R147, R127). Log 42. -/
opaque removalFirst : Nat → Bool

/-- The revision number in the low byte of IDENT (12_formats.md section 12.5). Log 29. -/
opaque revision : Byte

end Sys2Proof.Config
end

