-- ==== Sys2Proof/Machine/State.lean ====
section
/-! DEFINITION. The state of the KA-24 as plain data: every register, queue, table, count, mode and mark the manual
gives the part (INVENTORY.md lists them with their rules), the queue of waiting commands, and the state after reset. -/
namespace Sys2Proof.Machine

/-! ### Outcomes -/

/-- The manual gives the block no stop: every error is a status, a count, a finding or an attention reason, and a
command that cannot arise in the present state leaves it as it is (log 1). So there is no fault to name. -/
inductive Fault where
  deriving DecidableEq, Repr

/-- Why a command has no outcome. -/
inductive Refusal where
  /-- Raised by `exec` for a row of the opcode table that has no meaning yet. Safe: the machine stops. -/
  | notModelled (mnemonic : String)
  deriving DecidableEq, Repr

/-! ### Memory -/

/-- The exchange memory: the listed bytes, addresses strictly rising, none of them zero (R189 clears to zero). -/
abbrev Memory := List Host.Cell

/-! ### Device -/

/-- Supply and RESET_N (R189): unpowered, held in reset, or running. -/
inductive Power where
  | off | held | on
  deriving DecidableEq, Repr

/-- The device state read from CONTROL (R188). -/
inductive DeviceState where
  | starting | running | stopping | stopped
  deriving DecidableEq, Repr

/-- The task unit's mark of a slot (R182). -/
inductive SlotMark where
  | host | held | answered
  deriving DecidableEq, Repr

/-- What the task unit keeps of one task slot: its mark, and while HELD the kind and payload copied into device
hands (R183) and whether a CANCEL of the task has been handed on (R184). -/
structure TaskSlot where
  mark : SlotMark
  kind : Word16
  payload : List Byte
  cancelHanded : Bool
  deriving DecidableEq, Repr

/-- Config and settings status (R3, R179; Table 2 of Formats). -/
inductive ConfigStatus where
  | none | applied | appliedClamped | refused
  deriving DecidableEq, Repr

/-- The settings in force (R179). -/
structure Settings where
  retryCount : Byte
  presenceLimit : Word32
  groupMask : Byte
  quiet : Bool
  deriving DecidableEq, Repr

/-! ### Positions -/

/-- Reason of a refused configuration half (R1, R2). -/
inductive RefusalReason where
  | none | badAddress | badValue | addressInUse | channelInUse
  deriving DecidableEq, Repr

inductive Enforcement where
  | observe | enforce
  deriving DecidableEq, Repr

inductive TempSource where
  | tag | hostValue
  deriving DecidableEq, Repr

/-- An applied configuration (Table 1 of Positions). `accept` is the set of nonzero accept classes, rising. -/
structure PosConfig where
  line : LineId
  address : Byte
  channel : Option ChannelId
  accept : List Word16
  interval : Word16
  cycleInput : Option InputId
  threshold : Word16
  grace : Word16
  enforcement : Enforcement
  group : Option GroupId
  tempSource : TempSource
  allowExpired : Bool
  vacancyAllows : Bool
  deriving DecidableEq, Repr

/-- Sequencer states (R8). -/
inductive SeqState where
  | off | idle | cycle | commit
  deriving DecidableEq, Repr

/-- The interval timer (R9): not running, held while the device is STOPPING or STOPPED, or running for the interval. -/
inductive Timer where
  | stopped | held | running (interval : Word16)
  deriving DecidableEq, Repr

/-- Stages of a cycle (Table 1 of The Inspection Cycle); CHECKS, SCREEN and VERDICT are passed
within one step. -/
inductive Stage where
  | identify | checks | challenge | signature | presence | screen | verdict
  deriving DecidableEq, Repr

/-- Inconclusive reasons (R70). -/
inductive Reason where
  | none | noKey | noClass | noChannel | link | aborted
  deriving DecidableEq, Repr

/-- Verdict states (Table 1 of Verdicts and Screening). -/
inductive Verdict where
  | disabled | vacant | arriving | cleared | doubtful | rejected | barred | expired
  deriving DecidableEq, Repr

/-- The UID held at a position with its mark (R13, R15, R57). -/
inductive UidHeld where
  | none | bound (uid : Word64) | read (uid : Word64)
  deriving DecidableEq, Repr

/-- Line failures that can be a position's last line error (R17, R38). -/
inductive LineError where
  | readback | noReply | pace | check | length | stuck | reset
  deriving DecidableEq, Repr

inductive SignatureMode where
  | none | required
  deriving DecidableEq, Repr

/-- A class record (Table 1 of Classes and Keys). `beta` is signed. -/
structure ClassRecord where
  code : Word16
  keySlot : KeySlotId
  mode : SignatureMode
  tau : Word32
  alpha : Word16
  beta : Word16
  bandLo : Word16
  bandHi : Word16
  trip : Byte
  recover : Byte
  forgive : Byte
  latch : Byte
  deriving DecidableEq, Repr

/-- The cycle context (R52). The UID held, its mark, the record concerned and the cycle number are the position's own
fields. `deviation` and `temp` are what this cycle's measurement handed. -/
structure CycleContext where
  stage : Stage
  status : Option Byte
  n : Nat
  blocks : List Byte
  ratio : Word16
  identifyRetries : Nat
  classCopy : Option ClassRecord
  findings : Word16
  reason : Reason
  challenge : Option Word64
  challengeRetries : Nat
  r20 : Option Word32
  deviation : Option Word32
  temp : Option Word16
  tasks : List SlotId
  deriving DecidableEq, Repr

/-- A running commit (R101, R107): the base K, whether the confirm read is out, the retries so far, its tasks. -/
structure CommitContext where
  base : Word32
  confirming : Bool
  retries : Nat
  tasks : List SlotId
  deriving DecidableEq, Repr

/-- Everything kept for one position: applied configuration, sequencer, verdict record, usage counts and the items
of the state half (Table 2 of Positions). -/
@[ext]
structure Position where
  enabled : Bool
  applied : PosConfig
  seq : SeqState
  editionWaiting : Bool
  owed : Bool
  timer : Timer
  cycle : Option CycleContext
  inspectWaiting : List SlotId
  commit : Option CommitContext
  commitWaiting : List SlotId
  pendingUse : Word16
  inFlight : Word16
  committed : Word32
  lost : Word32
  dropped : Word32
  unconfirmed : Bool
  cycleNumber : Word32
  cyclesCompleted : Word32
  overruns : Word16
  missed : Nat
  lastLineError : Option LineError
  verdict : Verdict
  findings : Word16
  reason : Reason
  doubt : Word16
  clean : Word16
  grace : Word16
  wear : Bool
  usageLimit : Word32
  uid : UidHeld
  classCode : Word16
  rMeas : Word32
  r20 : Word32
  rExp : Word32
  deviation : Word32
  clockRatio : Word16
  tagTemp : Word16
  known : Word32
  configStatus : ConfigStatus
  refusal : RefusalReason
  examined : Word16
  appliedEdition : Word16
  edition : Word16
  pulseDirty : Bool
  deriving DecidableEq, Repr

/-! ### Tag lines -/

/-- Line states (Table 3 of Tag Lines). -/
inductive LineState where
  | idle | calling | awaiting | receiving | resting | quiet | stuck
  deriving DecidableEq, Repr

/-- Who placed a request (R46). -/
inductive Requester where
  | position (p : PosId)
  | task (slot : SlotId)
  deriving DecidableEq, Repr

/-- The commands of a tag line with their parameters (Table 1 of Tag Lines); QUIET has no requester and is a line
activity. -/
inductive LineCommand where
  | readBlocks (first count : Byte)
  | writeBlock (block : Byte) (data : Word32)
  | challenge (value : Word64)
  | addUsage (amount : Word16)
  deriving DecidableEq, Repr

structure LineRequest where
  requester : Requester
  address : Byte
  command : LineCommand
  deriving DecidableEq, Repr

/-- What becomes of an outcome in flight (R48, R29, R88): handed to the requester; discarded with the task ended
CANCELLED; or discarded. -/
inductive Disposition where
  | live | cancelled | withdrawn
  deriving DecidableEq, Repr

/-- The transaction in flight (R37): its request, the retries used and the error of its last failed attempt. -/
structure Transaction where
  request : LineRequest
  retries : Nat
  lastError : Option LineError
  disposition : Disposition
  deriving DecidableEq, Repr

/-- What the controller is sending, or resting after: the call of the transaction in flight, a QUIET (R44) or a WAKE
(R45; `failed` after a readback failure, `fromStuck` when it follows a stuck line). -/
inductive LineActivity where
  | none
  | call
  | quiet (retries : Nat)
  | wake (retries : Nat) (failed fromStuck : Bool)
  deriving DecidableEq, Repr

/-- The pace measured on the reply being received (R35): T8 in units of 62.5 ns and the clock ratio. -/
inductive Pace where
  | none | malformed | measured (t8 : Nat) (ratio : Word16)
  deriving DecidableEq, Repr

/-- A LINE_RESET task waiting for its WAKE's rest, with the items of its result (R49). -/
structure ResetWait where
  slot : SlotId
  found : LineState
  failed : Bool
  queued : Nat
  deriving DecidableEq, Repr

/-- The line counts (Table 6 of Tag Lines). -/
structure LineCounts where
  transactions : Word16
  retries : Word16
  readback : Word16
  noReply : Word16
  pace : Word16
  check : Word16
  length : Word16
  status : Word16
  stuck : Word16
  deriving DecidableEq, Repr

/-- One tag line controller. -/
@[ext]
structure LineCtl where
  state : LineState
  queue : List LineRequest
  inFlight : Option Transaction
  activity : LineActivity
  pace : Pace
  heldBack : Bool
  resetTasks : List ResetWait
  counts : LineCounts
  deriving DecidableEq, Repr

/-! ### Measurement unit -/

inductive UnitState where
  | idle | settling | sampling
  deriving DecidableEq, Repr

inductive CalKind where
  | offset | gain
  deriving DecidableEq, Repr

/-- The kinds of measurement request with what each carries (section 5.2, R66, R71, R85). `tagTemp` and `beta` are
signed. -/
inductive MeasKind where
  | signature (p : PosId) (source : TempSource) (tagTemp : Word16) (factory counter : Word32) (alpha beta : Word16)
      (tau : Word32)
  | presence (p : PosId)
  | calibrate (slot : SlotId) (kind : CalKind) (reference : Word32)
  deriving DecidableEq, Repr

structure MeasRequest where
  channel : ChannelId
  kind : MeasKind
  deriving DecidableEq, Repr

structure MeasFlight where
  request : MeasRequest
  disposition : Disposition
  deriving DecidableEq, Repr

/-- A calibration record (R83): the signed offset O and the gain G. -/
structure CalRecord where
  offset : Word16
  gain : Word32
  deriving DecidableEq, Repr

structure MeasUnit where
  state : UnitState
  queue : List MeasRequest
  inFlight : Option MeasFlight
  waiting : List MeasRequest
  cal : Vector CalRecord 24
  measurements : Word16
  saturated : Word16
  deriving DecidableEq, Repr

/-! ### Identity table, retired list, rules, key store, permits -/

/-- An identity record (Table 1 of Identity Table); its sighting place is its place in the list. -/
structure IdentityRecord where
  uid : Word64
  classCode : Word16
  bound : Option PosId
  known : Word32
  rejects : Nat
  contest : List PosId
  deriving DecidableEq, Repr

inductive Quantity where
  | deviation | r20 | clock | temp | usageThousands | pending | retries
  deriving DecidableEq, Repr

inductive Sense where
  | inside | outside
  deriving DecidableEq, Repr

/-- A screening rule (R148); `lo` and `hi` are signed. -/
structure Rule where
  enabled : Bool
  group : Fin 4
  quantity : Quantity
  lo : Word32
  hi : Word32
  sense : Sense
  classCode : Word16
  deriving DecidableEq, Repr

/-- A key slot (R166): only a VALID slot has a key that can be used. -/
inductive KeySlot where
  | empty | valid (key : Key) | invalid
  deriving DecidableEq, Repr

/-- The key tasks (R168). -/
inductive KeyOp where
  | unlock (value : Key)
  | lock
  | load (slot : KeySlotId) (key : Key)
  | erase (slot : KeySlotId)
  deriving DecidableEq, Repr

structure KeyTask where
  slot : SlotId
  op : KeyOp
  deriving DecidableEq, Repr

/-- A slot write in progress (R171); RESTART takes its task away (R168). -/
structure KeyWrite where
  target : KeySlotId
  key : Key
  task : Option SlotId
  deriving DecidableEq, Repr

structure KeyStore where
  slots : Vector KeySlot 16
  locked : Bool
  attempts : Nat
  damaged : Nat
  queue : List KeyTask
  writing : Option KeyWrite
  deriving DecidableEq, Repr

/-- The permit unit's own state (R153): hold latches, its copy of the group enable mask, the permit word and the
blocker set of each group. Its member entries are computed from the positions (log 35). -/
structure PermitUnit where
  holds : Byte
  groupEnable : Byte
  permitWord : Byte
  blockers : Vector Byte 8
  deriving DecidableEq, Repr

/-- The whole part. -/
@[ext]
structure State where
  power : Power
  pending : List Instr
  device : DeviceState
  clearing : Bool
  mem : Memory
  watch : List WatchId
  slots : Vector TaskSlot 8
  misuse : Word16
  attention : BitVec 4
  attentionEnable : BitVec 4
  blockEdition : Word16
  blockDirty : Bool
  settings : Settings
  settingsStatus : ConfigStatus
  settingsExamined : Word16
  settingsApplied : Word16
  positions : Vector Position 24
  lineA : LineCtl
  lineB : LineCtl
  meas : MeasUnit
  levels : BitVec 8
  pulses : Vector Word32 8
  inhibitN : Bool
  identity : List IdentityRecord
  evictions : Word16
  retired : List Word64
  retiredDropped : Word16
  rules : Vector Rule 8
  ruleLoads : Word16
  classes : List ClassRecord
  keys : KeyStore
  permits : PermitUnit
  free : Nat
  deriving DecidableEq, Repr

/-! ### Reset values -/

/-- No applied configuration (R18): nothing reads it while the position is disabled. -/
def PosConfig.reset : PosConfig :=
  { line := .A, address := 0, channel := none, accept := [], interval := 0, cycleInput := none, threshold := 0,
    grace := 0, enforcement := .observe, group := none, tempSource := .tag, allowExpired := false,
    vacancyAllows := false }

/-- A position after power-on and RESET_N (R18, R99, R129). -/
def Position.reset : Position :=
  { enabled := false, applied := PosConfig.reset, seq := .off, editionWaiting := false, owed := false,
    timer := .stopped, cycle := none, inspectWaiting := [], commit := none, commitWaiting := [], pendingUse := 0,
    inFlight := 0, committed := 0, lost := 0, dropped := 0, unconfirmed := false, cycleNumber := 0,
    cyclesCompleted := 0, overruns := 0, missed := 0, lastLineError := none, verdict := .disabled, findings := 0,
    reason := .none, doubt := 0, clean := 0, grace := 0, wear := false, usageLimit := 0, uid := .none, classCode := 0,
    rMeas := 0, r20 := 0, rExp := 0, deviation := 0, clockRatio := 0, tagTemp := 0, known := 0, configStatus := .none,
    refusal := .none, examined := 0, appliedEdition := 0, edition := 0, pulseDirty := false }

def LineCounts.reset : LineCounts :=
  { transactions := 0, retries := 0, readback := 0, noReply := 0, pace := 0, check := 0, length := 0, status := 0,
    stuck := 0 }

/-- A line controller as start-up leaves it: sending its WAKE (R50). -/
def LineCtl.reset : LineCtl :=
  { state := .calling, queue := [], inFlight := none, activity := .wake 0 false false, pace := .none,
    heldBack := false, resetTasks := [], counts := LineCounts.reset }

/-- The reset calibration record: O = 0, G = 196 608 (R83). -/
def CalRecord.reset : CalRecord := { offset := 0, gain := 196608 }

def MeasUnit.reset : MeasUnit :=
  { state := .idle, queue := [], inFlight := none, waiting := [], cal := Vector.replicate 24 CalRecord.reset,
    measurements := 0, saturated := 0 }

/-- Settings in force until the host's record is applied (R179). -/
def Settings.reset : Settings := { retryCount := 2, presenceLimit := 2000000, groupMask := 0, quiet := false }

/-- A disabled rule, at reset and as loaded (R148, R151). What its other fields hold is the model's choice (log 10). -/
def Rule.reset : Rule :=
  { enabled := false, group := 0, quantity := .deviation, lo := 0, hi := 0, sense := .inside, classCode := 0 }

def TaskSlot.reset : TaskSlot := { mark := .host, kind := 0, payload := [], cancelHanded := false }

/-- Key slots never written (R166); the lock state before the start-up check is a choice (log 10). -/
def KeyStore.reset : KeyStore :=
  { slots := Vector.replicate 16 .empty, locked := true, attempts := 3, damaged := 0, queue := [], writing := none }

/-- Holds clear, no group enabled, every permit OFF; NOT_RUNNING, INHIBIT and DISABLED_GROUP stand (R153, R161). -/
def PermitUnit.reset : PermitUnit :=
  { holds := 0, groupEnable := 0, permitWord := 0, blockers := Vector.replicate 8 0b00111 }

/-- The part just after its first RESET_N_RELEASE (R189 steps 1 to 3), INHIBIT_N and CYC0..CYC7 accepted low
(log 2). -/
def State.reset : State :=
  { power := .on, pending := [], device := .starting, clearing := true, mem := [], watch := [],
    slots := Vector.replicate 8 TaskSlot.reset, misuse := 0, attention := 0, attentionEnable := 0b1111,
    blockEdition := 0, blockDirty := false, settings := Settings.reset, settingsStatus := .none,
    settingsExamined := 0, settingsApplied := 0, positions := Vector.replicate 24 Position.reset,
    lineA := LineCtl.reset, lineB := LineCtl.reset, meas := MeasUnit.reset, levels := 0,
    pulses := Vector.replicate 8 0, inhibitN := false, identity := [], evictions := 0, retired := [],
    retiredDropped := 0, rules := Vector.replicate 8 Rule.reset, ruleLoads := 0, classes := [],
    keys := KeyStore.reset, permits := PermitUnit.reset, free := 0 }

end Sys2Proof.Machine
end

