-- ==== Sys2Proof/Machine/Memory.lean ====
section
/-! DEFINITION. The exchange memory (R174, 12_formats.md): reading and writing bytes, 16-bit words in little-endian
order and wider quantities, low word first; the byte order of the part is decided here and nowhere else. -/
namespace Sys2Proof.Machine

/-- The exchange memory holds 16 KiB (section 11.1). -/
def Memory.size : Nat := 0x4000

/-- What an unlisted byte reads as: power-on and RESET_N clear the memory to zero (R174, R189). -/
def Memory.unlisted : Byte := 0

/-- The byte at address `a`. -/
def Memory.read : Memory → Nat → Byte
  | [], _ => Memory.unlisted
  | (k, b) :: m, a => if k = a then b else Memory.read m a

/-- The cells of the bytes `bs` laid from address `a` on: only bytes inside the memory that are not zero are listed. -/
def Memory.cells : Nat → List Byte → Memory
  | _, [] => []
  | a, b :: bs =>
    if b = Memory.unlisted ∨ Memory.size ≤ a then Memory.cells (a + 1) bs else (a, b) :: Memory.cells (a + 1) bs

/-- Write the bytes `bs` from address `a` on. -/
def Memory.write (m : Memory) (a : Nat) (bs : List Byte) : Memory :=
  m.filter (fun c => decide (c.1 < a)) ++ Memory.cells a bs ++
    m.filter (fun c => decide (a + bs.length ≤ c.1))

/-- The canonical form: addresses strictly rising and inside the memory, no byte that an unlisted address reads as. -/
def Memory.wf : Memory → Bool
  | [] => true
  | (a, b) :: m =>
    decide (b ≠ Memory.unlisted) && decide (a < Memory.size) && m.all (fun c => decide (a < c.1)) && Memory.wf m

/-! ### Byte order -/

/-- The bytes of a value of `8 * n` bits, least significant first. -/
def leBytes (n : Nat) (v : Nat) : List Byte :=
  (List.range n).map (fun i => BitVec.ofNat 8 (v >>> (8 * i)))

/-- The value of bytes, least significant first. -/
def ofLeBytes : List Byte → Nat
  | [] => 0
  | b :: bs => b.toNat + 256 * ofLeBytes bs

/-- A flag byte as the device writes it (R192). -/
def flagByte (b : Bool) : Byte := if b then 1 else 0

def bytes8 (n : Nat) : List Byte := leBytes 1 n
def bytes16 (w : Word16) : List Byte := leBytes 2 w.toNat
def bytes32 (w : Word32) : List Byte := leBytes 4 w.toNat
def bytes64 (w : Word64) : List Byte := leBytes 8 w.toNat

/-- The `n` bytes from address `a` on. -/
def Memory.bytes (m : Memory) (a n : Nat) : List Byte :=
  (List.range n).map (fun i => m.read (a + i))

/-- The 16-bit word at byte address `a`. -/
def Memory.word (m : Memory) (a : Nat) : Word16 :=
  BitVec.ofNat 16 (ofLeBytes (m.bytes a 2))

/-- The 32-bit quantity at byte address `a`. -/
def Memory.word32 (m : Memory) (a : Nat) : Word32 :=
  BitVec.ofNat 32 (ofLeBytes (m.bytes a 4))

/-- Write the 16-bit word `w` at byte address `a`. -/
def Memory.writeWord (m : Memory) (a : Nat) (w : Word16) : Memory :=
  m.write a (bytes16 w)

/-! ### Reading a payload or a reply, at an offset of a byte list -/

/-- The byte at offset `i`; the bytes beyond a list's end are not there and read 0. -/
def byteAt (bs : List Byte) (i : Nat) : Byte := bs.getD i 0

/-- The `n`-byte value at offset `i`, least significant byte first. -/
def natAt (bs : List Byte) (i n : Nat) : Nat := ofLeBytes ((List.range n).map (fun k => byteAt bs (i + k)))

def word16At (bs : List Byte) (i : Nat) : Word16 := BitVec.ofNat 16 (natAt bs i 2)
def word32At (bs : List Byte) (i : Nat) : Word32 := BitVec.ofNat 32 (natAt bs i 4)
def word64At (bs : List Byte) (i : Nat) : Word64 := BitVec.ofNat 64 (natAt bs i 8)
def keyAt (bs : List Byte) (i : Nat) : Key := BitVec.ofNat 128 (natAt bs i 16)

/-! ### The map of the exchange memory (Table 1 of Formats) -/

def deviceBlockAddr : Nat := 0x0000
def settingsAddr : Nat := 0x0080
def calBlockAddr : Nat := 0x0D00
def positionAddr (p : PosId) : Nat := 0x0100 + 128 * p.val
def stateHalfAddr (p : PosId) : Nat := positionAddr p + 0x40
def extensionAddr (p : PosId) : Nat := 0x1800 + 32 * p.val
def slotAddr (k : SlotId) : Nat := 0x1000 + 256 * k.val
def bulkStart : Nat := 0x2000
def bulkEnd : Nat := 0x4000

/-- The byte address of a watched word (section 12.1). -/
def watchedAddr (i : WatchId) : Nat :=
  if h : i.val < 24 then positionAddr ⟨i.val, h⟩
  else if i.val = 24 then settingsAddr
  else 0x1000 + 256 * (i.val - 25)

/-- The watched word at a byte address, if there is one. -/
def watchAt (a : Nat) : Option WatchId :=
  (List.finRange 33).find? (fun i => decide (watchedAddr i = a))

end Sys2Proof.Machine
end

