-- ==== Sys2Proof/Machine/Ops.lean ====
section
/-! DEFINITION. The named operations over the state that the other files use: counting, reaching a position, a line or
a task slot, raising attention reasons, and drawing free values. -/
namespace Sys2Proof.Machine

/-! ### Counts -/

/-- Raise a 16-bit saturating count by 1: it stays at 65 535 (R10, R51, R77, R113, R121, R178). -/
def satInc (c : Word16) : Word16 := if c = 0xFFFF#16 then c else c + 1

/-- Bring a value into a range. -/
def clampNat (lo hi v : Nat) : Nat := if v < lo then lo else if hi < v then hi else v

def clampInt (lo hi v : Int) : Int := if v < lo then lo else if hi < v then hi else v

/-! ### Positions, lines and slots -/

def State.pos (s : State) (p : PosId) : Position := s.positions[p.val]

def State.setPos (s : State) (p : PosId) (x : Position) : State :=
  { s with positions := s.positions.set p.val x }

def State.modPos (s : State) (p : PosId) (f : Position → Position) : State := s.setPos p (f (s.pos p))

def State.line (s : State) : LineId → LineCtl
  | .A => s.lineA
  | .B => s.lineB

def State.setLine (s : State) (l : LineId) (x : LineCtl) : State :=
  match l with
  | .A => { s with lineA := x }
  | .B => { s with lineB := x }

def State.modLine (s : State) (l : LineId) (f : LineCtl → LineCtl) : State := s.setLine l (f (s.line l))

def State.slot (s : State) (k : SlotId) : TaskSlot := s.slots[k.val]

def State.setSlot (s : State) (k : SlotId) (x : TaskSlot) : State :=
  { s with slots := s.slots.set k.val x }

/-- All positions, rising. -/
def allPositions : List PosId := List.finRange 24

/-! ### Lists used as queues and sets -/

/-- Put `x` at the tail unless it is there (R175, R119). -/
def enqueueNew {α : Type} [DecidableEq α] (l : List α) (x : α) : List α := if x ∈ l then l else l ++ [x]

/-- Take `x` out. -/
def without {α : Type} [DecidableEq α] (l : List α) (x : α) : List α := l.filter (fun y => decide (y ≠ x))

/-! ### Free values -/

/-- Insert `p` into a list already in the order of draw `n`. -/
def insertFree (n : Nat) (p : PosId) : List PosId → List PosId
  | [] => [p]
  | q :: qs => if Config.actsBefore n p q then p :: q :: qs else q :: insertFree n p qs

/-- The positions `ps` in an order that the manual leaves open (R46, R79): any order can come. -/
def inFreeOrder (n : Nat) : List PosId → List PosId
  | [] => []
  | p :: ps => insertFree n p (inFreeOrder n ps)

/-- Move on to the next free values. -/
def State.draw (s : State) : State := { s with free := s.free + 1 }

/-! ### Marks that lead to a posting -/

/-- A count shown in the device block has changed (R177). -/
def State.touchBlock (s : State) : State := { s with blockDirty := true }

end Sys2Proof.Machine
end

