-- ==== Sys2Proof/Machine/Flags.lean ====
section
/-! DEFINITION. The sets held as bits and the codes of enumerated fields (R192, Table 2 of Formats): attention reasons,
findings, blocker sets, and the code of every enumerated value as the device writes it. -/
namespace Sys2Proof.Machine

/-! ### Attention (R181, section 12.5) -/

def attPosted : BitVec 4 := 0b0001
def attPermit : BitVec 4 := 0b0010
def attFault : BitVec 4 := 0b0100
def attStarted : BitVec 4 := 0b1000

/-- Set attention reasons; a reason already set stays set (R181). -/
def State.attend (s : State) (r : BitVec 4) : State := { s with attention := s.attention ||| r }

/-- ATTN_N: driven low (false) while at least one reason is both set and enabled (R181). -/
def State.attnN (s : State) : Bool := decide (s.attention &&& s.attentionEnable = 0)

/-! ### Findings (Table 4 of The Inspection Cycle) -/

def fIdFormat : Word16 := 0x0001
def fUnreadable : Word16 := 0x0002
def fRetired : Word16 := 0x0004
def fDuplicate : Word16 := 0x0008
def fClass : Word16 := 0x0010
def fUsageMismatch : Word16 := 0x0020
def fRegression : Word16 := 0x0040
def fResponse : Word16 := 0x0080
def fClock : Word16 := 0x0100
def fSignature : Word16 := 0x0200
def fSignatureRange : Word16 := 0x0400
def fSilent : Word16 := 0x0800

/-- SCREEN_0..SCREEN_3, bits 12 to 15. -/
def fScreen (g : Fin 4) : Word16 := 0x1000#16 <<< g.val

/-- The immediate findings: bits 0 to 7. -/
def immediateMask : Word16 := 0x00FF

/-- A findings set holds a finding of the mask. -/
def hasAny (set mask : Word16) : Bool := decide (set &&& mask ≠ 0)

/-- Add the finding when the condition holds. -/
def withFinding (set : Word16) (c : Bool) (f : Word16) : Word16 := if c then set ||| f else set

/-! ### Blocker sets (R161) -/

def bNotRunning : Byte := 0b00001
def bInhibit : Byte := 0b00010
def bDisabledGroup : Byte := 0b00100
def bHeld : Byte := 0b01000
def bPositions : Byte := 0b10000

/-! ### Codes (Table 2 of Formats) -/

def DeviceState.code : DeviceState → Byte
  | .starting => 0 | .running => 1 | .stopping => 2 | .stopped => 3

def Verdict.code : Verdict → Byte
  | .disabled => 0 | .vacant => 1 | .arriving => 2 | .cleared => 3 | .doubtful => 4 | .rejected => 5 | .barred => 6
  | .expired => 7

def Reason.code : Reason → Byte
  | .none => 0 | .noKey => 1 | .noClass => 2 | .noChannel => 3 | .link => 4 | .aborted => 5

def UidHeld.code : UidHeld → Byte
  | .none => 0 | .bound _ => 1 | .read _ => 2

/-- The 8 UID bytes: an absent UID is written as 0 (R192). -/
def UidHeld.value : UidHeld → Word64
  | .none => 0 | .bound u => u | .read u => u

def SeqState.code : SeqState → Byte
  | .off => 0 | .idle => 1 | .cycle => 2 | .commit => 3

def Stage.code : Stage → Byte
  | .identify => 1 | .checks => 2 | .challenge => 3 | .signature => 4 | .presence => 5 | .screen => 6 | .verdict => 7

def ConfigStatus.code : ConfigStatus → Byte
  | .none => 0 | .applied => 1 | .appliedClamped => 2 | .refused => 3

def RefusalReason.code : RefusalReason → Byte
  | .none => 0 | .badAddress => 1 | .badValue => 2 | .addressInUse => 3 | .channelInUse => 4

def LineError.code : LineError → Byte
  | .readback => 1 | .noReply => 2 | .pace => 3 | .check => 4 | .length => 5 | .stuck => 6 | .reset => 7

def lineErrorCode : Option LineError → Byte
  | none => 0
  | some e => e.code

def LineState.code : LineState → Byte
  | .idle => 0 | .calling => 1 | .awaiting => 2 | .receiving => 3 | .resting => 4 | .quiet => 5 | .stuck => 6

def UnitState.code : UnitState → Byte
  | .idle => 0 | .settling => 1 | .sampling => 2

def KeySlot.code : KeySlot → Byte
  | .empty => 0 | .valid _ => 1 | .invalid => 2

def SignatureMode.code : SignatureMode → Byte
  | .none => 0 | .required => 1

def CalKind.code : CalKind → Byte
  | .offset => 0 | .gain => 1

/-! ### Task statuses (Table 5 of Exchange Memory, section 12.6) -/

inductive TaskStatus where
  | ok | clamped | cancelled | restarted | badKind | badArgument | badRange | noSuch | refused | inUse | locked
  | wrongKey | blocked | tableFull | lineFailed | lineStuck | lineReset | outOfRange
  deriving DecidableEq, Repr

def TaskStatus.code : TaskStatus → Word16
  | .ok => 0 | .clamped => 1 | .cancelled => 2 | .restarted => 3 | .badKind => 0x10 | .badArgument => 0x11
  | .badRange => 0x12 | .noSuch => 0x13 | .refused => 0x14 | .inUse => 0x15 | .locked => 0x20 | .wrongKey => 0x21
  | .blocked => 0x22 | .tableFull => 0x23 | .lineFailed => 0x30 | .lineStuck => 0x31 | .lineReset => 0x32
  | .outOfRange => 0x33

/-! ### Owner words (Table 3 of Exchange Memory) -/

def ownerFree : Word16 := 0x0000
def ownerReady : Word16 := 0x5A01
def ownerTaken : Word16 := 0x5A02
def ownerDone : Word16 := 0x5A03
def ownerCancel : Word16 := 0x5A04

end Sys2Proof.Machine
end

