-- ==== Sys2Proof/Machine/Operands.lean ====
section
/-! DEFINITION. The operand forms: the configuration half and the settings record as they stand in the exchange memory
(R1, R179), enumerated payload fields (R192), UIDs and tag blocks (R19, R20), the pace byte and the characters of a
reply (R31, R33 to R36). -/
namespace Sys2Proof.Machine

/-! ### Rounding (00_scope.md section 5) -/

/-- The nearest natural number to `n / d`, halves up. -/
def roundNat (n d : Nat) : Nat := (2 * n + d) / (2 * d)

/-- The nearest integer to `n / d`, halves away from zero. -/
def roundInt (n : Int) (d : Nat) : Int :=
  if 0 ≤ n then (roundNat n.toNat d : Nat) else -((roundNat (-n).toNat d : Nat) : Int)

/-! ### Enumerated fields (R192) -/

def lineOfCode (b : Byte) : Option LineId :=
  if b = 0 then some .A else if b = 1 then some .B else none

/-- A field that names one of `n` things, or NONE as 0xFF; any other value names nothing. -/
def optionOfCode (n : Nat) (b : Byte) : Option (Option (Fin n)) :=
  if h : b.toNat < n then some (some ⟨b.toNat, h⟩) else if b = 0xFF then some none else none

/-- A payload field that names one of `n` things. -/
def finOfCode (n : Nat) (b : Byte) : Option (Fin n) :=
  if h : b.toNat < n then some ⟨b.toNat, h⟩ else none

def enforcementOfCode (b : Byte) : Option Enforcement :=
  if b = 0 then some .observe else if b = 1 then some .enforce else none

def tempSourceOfCode (b : Byte) : Option TempSource :=
  if b = 0 then some .tag else if b = 1 then some .hostValue else none

def modeOfCode (b : Byte) : Option SignatureMode :=
  if b = 0 then some .none else if b = 1 then some .required else none

def calKindOfCode (b : Byte) : Option CalKind :=
  if b = 0 then some .offset else if b = 1 then some .gain else none

def quantityOfCode (b : Byte) : Option Quantity :=
  if b = 0 then some .deviation else if b = 1 then some .r20 else if b = 2 then some .clock
  else if b = 3 then some .temp else if b = 4 then some .usageThousands else if b = 5 then some .pending
  else if b = 6 then some .retries else none

def senseOfCode (b : Byte) : Option Sense :=
  if b = 0 then some .inside else if b = 1 then some .outside else none

/-- How an absent thing or a number is written in a one-byte field (R192). -/
def optionCode {n : Nat} : Option (Fin n) → Byte
  | none => 0xFF
  | some i => BitVec.ofNat 8 i.val

def lineCode : LineId → Byte
  | .A => 0
  | .B => 1

/-! ### The configuration half (R1) -/

/-- Insert a class code into a set kept rising. -/
def insertCode (c : Word16) : List Word16 → List Word16
  | [] => [c]
  | d :: ds => if c = d then d :: ds else if c.toNat < d.toNat then c :: d :: ds else d :: insertCode c ds

/-- The accept classes as the set of their nonzero entries (R1). -/
def acceptSet (entries : List Word16) : List Word16 :=
  entries.foldl (fun set c => if c = 0 then set else insertCode c set) []

/-- What R1 makes of a half, before the conflict checks of R2. -/
inductive HalfExam where
  | disabled
  | refused (r : RefusalReason)
  | accepted (c : PosConfig) (clamped : Bool)
  deriving DecidableEq, Repr

/-- R1: the fields of the half of position `p` in the order of Table 1; the first value that cannot be represented
refuses. -/
def examineHalf (m : Memory) (p : PosId) : HalfExam :=
  let base := positionAddr p
  let byte (i : Nat) := m.read (base + i)
  let word (i : Nat) := m.word (base + i)
  if byte 0x02 = 0 then .disabled
  else
    match lineOfCode (byte 0x03) with
    | none => .refused .badValue
    | some line =>
    if byte 0x04 = 0 ∨ 31 < (byte 0x04).toNat then .refused .badAddress
    else
    match optionOfCode 24 (byte 0x05) with
    | none => .refused .badValue
    | some channel =>
    match optionOfCode 8 (byte 0x06) with
    | none => .refused .badValue
    | some cycleInput =>
    match enforcementOfCode (byte 0x08) with
    | none => .refused .badValue
    | some enforcement =>
    match optionOfCode 8 (byte 0x07) with
    | none => .refused .badValue
    | some group =>
    match tempSourceOfCode (byte 0x09) with
    | none => .refused .badValue
    | some tempSource =>
      let interval := clampNat 5 600 (word 0x0C).toNat
      let threshold := clampNat 1 60000 (word 0x0E).toNat
      .accepted
        { line := line, address := byte 0x04, channel := channel,
          accept := acceptSet [word 0x14, word 0x16, word 0x18, word 0x1A],
          interval := BitVec.ofNat 16 interval, cycleInput := cycleInput,
          threshold := BitVec.ofNat 16 threshold, grace := word 0x10, enforcement := enforcement, group := group,
          tempSource := tempSource, allowExpired := decide (byte 0x0A ≠ 0), vacancyAllows := decide (byte 0x0B ≠ 0) }
        (decide (interval ≠ (word 0x0C).toNat ∨ threshold ≠ (word 0x0E).toNat))

/-- The host temperature word of position `p`, signed, as it stands (R93). -/
def hostTemperature (m : Memory) (p : PosId) : Word16 := m.word (positionAddr p + 0x12)

/-! ### The settings record (R179) -/

/-- The settings as taken from the record, and whether a value was clamped. -/
def readSettings (m : Memory) : Settings × Bool :=
  let retry := (m.read (settingsAddr + 2)).toNat
  let limit := (m.word32 (settingsAddr + 4)).toNat
  let retry' := clampNat 0 3 retry
  let limit' := clampNat 1 4000000 limit
  ({ retryCount := BitVec.ofNat 8 retry', presenceLimit := BitVec.ofNat 32 limit',
     groupMask := m.read (settingsAddr + 8), quiet := decide (m.read (settingsAddr + 9) ≠ 0) },
   decide (retry' ≠ retry ∨ limit' ≠ limit))

/-! ### UIDs and tag blocks (R19, R20, section 12.7) -/

/-- R20: the check nibble equals the sum of the other fifteen nibbles modulo 16. -/
def uidWellFormed (u : Word64) : Bool :=
  let nibble (i : Nat) := (u.toNat / 16 ^ i) % 16
  decide (((List.range 15).map (fun i => nibble (i + 1))).sum % 16 = nibble 0)

def tagUid (blocks : List Byte) : Word64 := word64At blocks 0
def tagClass (blocks : List Byte) : Word16 := word16At blocks 8
def tagFactory (blocks : List Byte) : Word32 := word32At blocks 12
def tagLimit (blocks : List Byte) : Word32 := word32At blocks 16
def tagCounter (blocks : List Byte) : Word32 := word32At blocks 20
def tagTemperature (blocks : List Byte) : Word16 := word16At blocks 24

/-- A temperature brought into -80..500 half-degrees (R19, R93). -/
def clampTemp (t : Word16) : Word16 := BitVec.ofInt 16 (clampInt (-80) 500 t.toInt)

/-! ### The pace byte (R35) -/

def paceSpan (e : PaceEdges) : Nat := e.span1 + e.span2 + e.span3 + e.span4

/-- A span between successive falling edges lies within 3 x T8 / 16 .. 5 x T8 / 16. -/
def spanOk (t8 x : Nat) : Bool := decide (3 * t8 ≤ 16 * x ∧ 16 * x ≤ 5 * t8)

/-- The clock ratio r = round(416 667 x 10 000 / T8), T8 in units of 62.5 ns. -/
def clockRatio (t8 : Nat) : Nat := roundNat (416667 * 10000 * 2) (125 * t8)

/-- R35: the pace measured on a pace byte; 1 ms is 16 000 units of 62.5 ns. -/
def measurePace (e : PaceEdges) : Pace :=
  if 16000 < (paceSpan e) ∨ ¬ (spanOk (paceSpan e) e.span1 ∧ spanOk (paceSpan e) e.span2 ∧ spanOk (paceSpan e) e.span3 ∧ spanOk (paceSpan e) e.span4) ∨
      e.stopHigh = false ∨ clockRatio (paceSpan e) < 7500 ∨ 12500 < clockRatio (paceSpan e) then .malformed
  else .measured (paceSpan e) (BitVec.ofNat 16 (clockRatio (paceSpan e)))

/-! ### Frames and replies (R31 to R36) -/

/-- The folded sum of a frame's covered bytes (R33). -/
def foldSum (bs : List Byte) : Nat :=
  bs.foldl (fun a b => if 255 < a + b.toNat then a + b.toNat - 255 else a + b.toNat) 0

/-- The check byte of the covered bytes (R33). -/
def checkByte (bs : List Byte) : Byte := BitVec.ofNat 8 (255 - foldSum bs)

/-- R33: the folded sum, continued with the check byte, equals 255. -/
def frameValid (bs : List Byte) : Bool := decide (foldSum bs = 255)

/-- What the bytes received so far call for. -/
inductive RxNeed where
  | more | complete | bad
  deriving DecidableEq, Repr

def needBytes (have_ total : Nat) : RxNeed := if have_ < total then .more else .complete

/-- R22: the block count that a status allows. -/
def blockCountAllowed (status n count : Byte) : Bool :=
  if status = 0 then decide (n = count) else decide (1 ≤ n.toNat ∧ n.toNat < count.toNat)

/-- R34: the length of a reply, fixed by the command and the status (and n): status, data and check byte. -/
def rxNeed (c : LineCommand) : List Byte → RxNeed
  | [] => .more
  | status :: rest =>
    match c with
    | .readBlocks _ count =>
      if status = 0 ∨ status = 6 then
        match rest with
        | [] => .more
        | n :: rest' => if blockCountAllowed status n count then needBytes rest'.length (4 * n.toNat + 1) else .bad
      else needBytes rest.length 1
    | .writeBlock _ _ => needBytes rest.length 1
    | .challenge _ => needBytes rest.length (if status = 0 then 9 else 1)
    | .addUsage _ => needBytes rest.length (if status = 0 then 5 else 1)

/-- What the reception of a reply comes to: an error of the attempt, or a valid reply's status and data. -/
inductive RxOutcome where
  | error (e : LineError)
  | reply (status : Byte) (data : List Byte)
  deriving DecidableEq, Repr

/-- The bytes of a complete reply judged by the check test of R33. -/
def judgeReply (bytes : List Byte) : RxOutcome :=
  if frameValid bytes then
    match bytes with
    | [] => .error .length
    | status :: rest => .reply status rest.dropLast
  else .error .check

/-- R31, R34, R36: the characters of a reply from its falling edges, `got` being the bytes received so far. An edge
whose sample at 0.5 b is high is ignored; a stop bit found low is CHECK; a gap above 3 b, an n not allowed, or an edge
within 3 b after the check byte is LENGTH; a failed check test is CHECK. -/
def receive (c : LineCommand) (t8 : Nat) : List Byte → List RxEdge → RxOutcome
  | got, [] =>
    match rxNeed c got with
    | .complete => judgeReply got
    | .more => .error .length
    | .bad => .error .length
  | got, e :: es =>
    match rxNeed c got with
    | .bad => .error .length
    | .complete =>
      if frameValid got ∧ 8 * e.gap ≤ 3 * t8 then .error .length else judgeReply got
    | .more =>
      if 3 * t8 < 8 * e.gap then .error .length
      else if e.samples.getLsbD 0 then receive c t8 got es
      else if e.samples.getLsbD 9 = false then .error .check
      else receive c t8 (got ++ [e.samples.extractLsb' 1 8]) es

/-- What the controller hands a requester when a transaction ends (R41). -/
inductive LineResult where
  | reply (status : Byte) (data : List Byte) (ratio : Word16) (retries : Nat)
  | failure (e : LineError) (retries : Nat)
  deriving DecidableEq, Repr

end Sys2Proof.Machine
end

