-- ==== Sys2Proof/Machine/Post.lean ====
section
/-! DEFINITION. Posting (R177, R178, R193, 12_formats.md Tables 3 and 5): the bytes of the device block and of a state
half with its extension, and the two postings; completing a task (R186) and freeing its slot. A posting is made whole
in one step, so the odd edition of R177 stands only inside it (log 4). -/
namespace Sys2Proof.Machine

/-! ### The state half and its extension (Table 5 of Formats) -/

/-- The flags byte at 0x46. -/
def Position.flagBits (x : Position) : Byte :=
  BitVec.ofNat 8 ((if x.wear then 1 else 0) + (if x.owed then 2 else 0) + (if x.unconfirmed then 4 else 0) +
    (if x.missed = 0 then 0 else 8))

/-- The stage shown: that of the running cycle, or none. -/
def Position.stageCode (x : Position) : Byte :=
  match x.cycle with
  | none => 0
  | some c => c.stage.code

/-- The 64 bytes of the state half. -/
def Position.halfBytes (x : Position) : List Byte :=
  bytes16 x.edition ++ [x.verdict.code, x.reason.code] ++ bytes16 x.findings ++ [x.flagBits, x.uid.code] ++
    bytes64 x.uid.value ++ bytes16 x.classCode ++ [x.seq.code, x.stageCode] ++ bytes16 x.doubt ++ bytes16 x.clean ++
    bytes16 x.grace ++ bytes16 x.clockRatio ++ bytes16 x.tagTemp ++ [x.configStatus.code, x.refusal.code] ++
    bytes32 x.rMeas ++ bytes32 x.r20 ++ bytes32 x.rExp ++ bytes32 x.deviation ++ bytes32 x.known ++
    bytes16 x.pendingUse ++ bytes16 x.inFlight ++ bytes32 x.committed ++ bytes32 x.lost

/-- The 32 bytes of the extension. -/
def Position.extensionBytes (x : Position) : List Byte :=
  bytes32 x.dropped ++ bytes32 x.cycleNumber ++ bytes32 x.cyclesCompleted ++ bytes16 x.overruns ++
    bytes16 x.examined ++ bytes16 x.appliedEdition ++ [lineErrorCode x.lastLineError] ++ List.replicate 13 0

/-! ### The device block (Table 3 of Formats) -/

def LineCtl.blockBytes (l : LineCtl) : List Byte :=
  [l.state.code] ++ bytes8 l.queue.length ++ bytes16 l.counts.transactions ++ bytes16 l.counts.retries ++
    bytes16 l.counts.readback ++ bytes16 l.counts.noReply ++ bytes16 l.counts.pace ++ bytes16 l.counts.check ++
    bytes16 l.counts.length ++ bytes16 l.counts.status ++ bytes16 l.counts.stuck

/-- The key slot states, two bits a slot, slot 0 lowest. -/
def KeyStore.stateBits (k : KeyStore) : Nat := k.slots.toList.foldr (fun x n => x.code.toNat + 4 * n) 0

def State.boundRecords (s : State) : Nat := (s.identity.filter (fun r => r.bound.isSome)).length

def State.enabledRules (s : State) : Nat := (s.rules.toList.filter (fun r => r.enabled)).length

/-- The 128 bytes of the first part. -/
def State.blockBytes (s : State) : List Byte :=
  bytes16 s.blockEdition ++ [s.device.code, s.settingsStatus.code] ++ bytes16 s.settingsExamined ++
    bytes16 s.settingsApplied ++ bytes32 s.settings.presenceLimit ++
    [s.settings.retryCount, flagByte s.settings.quiet, s.settings.groupMask] ++ bytes8 s.watch.length ++
    bytes16 s.misuse ++ [s.permits.permitWord, s.levels, flagByte s.inhibitN] ++ bytes8 s.classes.length ++
    bytes8 s.identity.length ++ bytes8 s.boundRecords ++ bytes16 s.evictions ++ bytes8 s.retired.length ++
    bytes8 s.enabledRules ++ bytes16 s.retiredDropped ++ bytes16 s.ruleLoads ++ s.permits.blockers.toList ++
    leBytes 4 s.keys.stateBits ++ [flagByte s.keys.locked] ++ bytes8 s.keys.attempts ++ bytes8 s.keys.queue.length ++
    bytes8 s.keys.damaged ++ [s.meas.state.code] ++ bytes8 s.meas.queue.length ++ bytes16 s.meas.measurements ++
    bytes16 s.meas.saturated ++ [0, 0] ++ s.lineA.blockBytes ++ s.lineB.blockBytes ++
    s.pulses.toList.flatMap bytes32

/-- The 144 bytes of the second part: the calibration records. -/
def State.calBytes (s : State) : List Byte :=
  s.meas.cal.toList.flatMap (fun c => bytes16 c.offset ++ bytes32 c.gain)

/-! ### Postings (R177) -/

/-- Post the device block: its edition moves on to the next even value, both parts are written, POSTED is set; what
waited for the 250 ms goes with it. A posting made in STARTING while the start-up clear may still run is kept: the
model's choice (log 47). -/
def State.postBlock (s : State) : State :=
  let s1 := { s with blockEdition := s.blockEdition + 2, blockDirty := false }
  { s1 with
    mem := (s1.mem.write deviceBlockAddr s1.blockBytes).write calBlockAddr s1.calBytes
    attention := s1.attention ||| attPosted }

/-- Post the state half of position `p` with its extension. -/
def State.postHalf (s : State) (p : PosId) : State :=
  let x := { s.pos p with edition := (s.pos p).edition + 2, pulseDirty := false }
  { s.setPos p x with
    mem := (s.mem.write (stateHalfAddr p) x.halfBytes).write (extensionAddr p) x.extensionBytes
    attention := s.attention ||| attPosted }

/-! ### Task completion (R186) -/

/-- The 126 bytes of a result: the status, the kind's data, and zeros (R186, R193). -/
def resultBytes (st : TaskStatus) (data : List Byte) : List Byte :=
  bytes16 st.code ++ data.take 124 ++ List.replicate (124 - data.length) 0

/-- The owner word of a slot as it stands. -/
def State.owner (s : State) (k : SlotId) : Word16 := s.mem.word (slotAddr k)

/-- R186: the result is written, DONE is written unless the word holds FREE or DONE, the mark becomes ANSWERED or HOST,
and POSTED is set. -/
def State.complete (s : State) (k : SlotId) (st : TaskStatus) (data : List Byte) : State :=
  let keep := s.owner k = ownerFree ∨ s.owner k = ownerDone
  let m := s.mem.write (slotAddr k + 0x82) (resultBytes st data)
  { s.setSlot k { TaskSlot.reset with mark := if keep then .host else .answered } with
    mem := if keep then m else m.writeWord (slotAddr k) ownerDone
    attention := s.attention ||| attPosted }

/-! ### Results whose data no rule states (log 7) -/

/-- What a field of a result holds where no rule states it: nothing but what R192 and R193 leave it. -/
inductive FreeField where
  /-- A byte that the layout leaves unassigned: 0 (R193). -/
  | unused
  /-- Bytes of any value. -/
  | bytes (n : Nat)
  /-- A flag, a code or a number that names nothing but one of these (R192). -/
  | oneOf (values : List Byte)
  /-- A UID mark and the UID: without a mark the UID bytes are 0 (R192). -/
  | uid
  /-- Whether a position was released, and its number: 0xFF without one (R127, R192). -/
  | released
  deriving DecidableEq, Repr

/-- The value among `l` that a free byte comes to. -/
def pick (l : List Byte) (b : Byte) : Byte := l.getD (b.toNat % l.length) 0

/-- The codes of a field with `n` values. -/
def codes (n : Nat) : List Byte := (List.range n).map (BitVec.ofNat 8)

/-- The bytes of a field that begins at data byte `i`, at a draw. -/
def FreeField.draw (d i : Nat) : FreeField → List Byte
  | .unused => [0]
  | .bytes n => (List.range n).map (fun j => Config.unstatedByte d (i + j))
  | .oneOf values => [pick values (Config.unstatedByte d i)]
  | .uid =>
    let mark := pick (codes 3) (Config.unstatedByte d i)
    mark :: (List.range 8).map (fun j => if mark = 0 then 0 else Config.unstatedByte d (i + 1 + j))
  | .released =>
    let flag := pick (codes 2) (Config.unstatedByte d i)
    [flag, if flag = 0 then 0xFF else pick (codes 24) (Config.unstatedByte d (i + 1))]

/-- The bytes of fields laid out from data byte `i` on. -/
def freeData (d i : Nat) : List FreeField → List Byte
  | [] => []
  | f :: fs => f.draw d i ++ freeData d (i + (f.draw d i).length) fs

/-- A field of one byte that is 0 or 1. -/
def FreeField.flag : FreeField := .oneOf (codes 2)

/-- The stored record of a CLASS_LOAD result. -/
def recordFields : List FreeField := [.bytes 3, .oneOf (codes 2), .bytes 16]

/-- The result fields of RULES_LOAD before the failed entry. -/
def rulesFields : List FreeField := [.bytes 1, .unused, .bytes 2]

/-- The failed field of RULES_LOAD and CLASS_LOAD. -/
def FreeField.failed : FreeField := .oneOf [1, 2, 3, 4, 0xFF]

/-- The data fields of each task kind (Table 6 of Formats). A TAG_READ has as many blocks as its n names. -/
def freeFields (d kind : Nat) : List FreeField :=
  match kind with
  | 0x01 => [.bytes 1, .flag, .oneOf (codes 5), .oneOf (codes 8), .bytes 6, .oneOf (codes 6), .uid, .bytes 6]
  | 0x02 =>
    let n := (Config.unstatedByte d 1).toNat % 9
    [.bytes 1, .oneOf [BitVec.ofNat 8 n], .bytes 3, .oneOf (codes 8), .bytes (4 * n)]
  | 0x03 => [.bytes 1, .unused, .bytes 3, .oneOf (codes 8)]
  | 0x04 => [.oneOf (codes 7), .flag, .bytes 1]
  | 0x05 => [.bytes 1, .unused, .bytes 6]
  | 0x06 => [.bytes 1, .oneOf (codes 2), .flag, .unused, .bytes 12]
  | 0x07 => [.bytes 1, .oneOf (codes 7), .bytes 1, .unused, .bytes 14]
  | 0x08 => [.bytes 12]
  | 0x09 => [.bytes 5]
  | 0x0A => [.bytes 8, .released]
  | 0x0B => [.bytes 10]
  | 0x0C => rulesFields ++ [.oneOf (codes 8 ++ [0xFF]), .failed]
  | 0x0D => [.bytes 2]
  | 0x0E => [.bytes 2]
  | 0x0F => recordFields ++ [.flag, .bytes 1, .failed]
  | 0x10 => [.bytes 3]
  | 0x11 => [.bytes 1, .oneOf (codes 3)]
  | 0x12 => [.bytes 1, .oneOf (codes 3)]
  | 0x13 => [.flag, .bytes 1]
  | 0x14 => [.flag]
  | _ => []

/-- Complete a task with a status for which no rule states the data: the data fields of its kind are free. -/
def State.completeFree (s : State) (k : SlotId) (st : TaskStatus) : State :=
  (s.complete k st (freeData s.free 0 (freeFields s.free (s.slot k).kind.toNat))).draw

/-- Complete several tasks alike, in order. -/
def State.completeAllFree (s : State) (ks : List SlotId) (st : TaskStatus) : State :=
  ks.foldl (fun s k => s.completeFree k st) s

end Sys2Proof.Machine
end

