-- ==== Sys2Proof/Machine/Take.lean ====
section
/-! DEFINITION. The task unit takes its work (R176, R182, R183): the entry at the head of the watch queue, a READY slot,
and a task of a given kind. -/
namespace Sys2Proof.Machine

/-! ### Taking entries -/

/-- R176: the head of the watch queue is taken, in every device state except STARTING. -/
def State.takeEntry (s : State) : Option (WatchId × State) :=
  if s.power = .on ∧ s.device ≠ .starting then
    match s.watch with
    | [] => none
    | i :: rest => some (i, { s with watch := rest })
  else none

/-- The position whose config edition an index is. -/
def posOfWatch (i : WatchId) : Option PosId := if h : i.val < 24 then some ⟨i.val, h⟩ else none

/-- The slot whose owner word an index is. -/
def slotOfWatch (i : WatchId) : Option SlotId := if h : 25 ≤ i.val then some ⟨i.val - 25, by omega⟩ else none

/-- An owner-word entry is at the head: the slot and the state without the entry. -/
def State.takeOwner (s : State) : Option (SlotId × State) :=
  match s.takeEntry with
  | none => none
  | some (i, t) => (slotOfWatch i).map (fun k => (k, t))

/-- The kind word of a slot. -/
def State.kindWord (s : State) (k : SlotId) : Word16 := s.mem.word (slotAddr k + 0x02)

/-- R183 steps 1 and 2: TAKEN is written, kind and payload are copied, the slot is HELD. -/
def State.takeSlot (s : State) (k : SlotId) : State :=
  { s.setSlot k
      { mark := .held, kind := s.kindWord k, payload := s.mem.bytes (slotAddr k + 0x04) 126, cancelHanded := false } with
    mem := s.mem.writeWord (slotAddr k) ownerTaken }

/-- R183: the entry at the head is an owner word that reads READY for a slot marked HOST or ANSWERED: the slot and the
state with its task in device hands. -/
def State.takeReady (s : State) : Option (SlotId × State) :=
  match s.takeOwner with
  | none => none
  | some (k, t) => if t.owner k = ownerReady ∧ (t.slot k).mark ≠ .held then some (k, t.takeSlot k) else none

/-- The entry at the head brings a task of this kind. -/
def State.takeTask (s : State) (kind : Word16) : Option (SlotId × State) :=
  match s.takeReady with
  | none => none
  | some (k, t) => if (t.slot k).kind = kind then some (k, t) else none

/-- Run a task of the given kind from the head of the watch queue; without one nothing happens (log 1). -/
def State.runTask (s : State) (kind : Word16) (work : SlotId → State → State) : State :=
  match s.takeTask kind with
  | none => s
  | some (k, t) => work k t

/-- The payload in device hands. -/
def State.payload (s : State) (k : SlotId) : List Byte := (s.slot k).payload

end Sys2Proof.Machine
end

