-- ==== Sys2Proof/Machine/Permit.lean ====
section
/-! DEFINITION. The permit unit (chapter Run Permits): what a member blocks, the blocker set and the permit of a group,
and the evaluation of R156 with its posting (R161). -/
namespace Sys2Proof.Machine

/-- The allowing states (R154). -/
def Position.allowing (x : Position) : Bool :=
  match x.verdict with
  | .cleared => true
  | .expired => x.applied.allowExpired
  | .vacant => x.applied.vacancyAllows
  | .arriving => decide (x.grace ≠ 0)
  | .doubtful => decide (x.grace ≠ 0)
  | .rejected => false
  | .barred => false
  | .disabled => false

/-- R154: the member entry of position `x` blocks group `g`. -/
def Position.blocks (x : Position) (g : GroupId) : Bool :=
  x.enabled && decide (x.applied.group = some g) && decide (x.applied.enforcement = .enforce) && !x.allowing

/-- At least one member entry blocks the group. -/
def State.memberBlocks (s : State) (g : GroupId) : Bool := s.positions.toList.any (fun x => x.blocks g)

/-- R161: one reason for each condition of R155 that fails. -/
def State.blockerSet (s : State) (g : GroupId) : Byte :=
  (if s.device = .running then 0 else bNotRunning) ||| (if s.inhibitN then 0 else bInhibit) |||
    (if s.permits.groupEnable.getLsbD g.val then 0 else bDisabledGroup) |||
    (if s.permits.holds.getLsbD g.val then bHeld else 0) ||| (if s.memberBlocks g then bPositions else 0)

/-- The blocker sets of all groups as the inputs stand. -/
@[irreducible] def State.blockerSets (s : State) : Vector Byte 8 := Vector.ofFn (fun g => s.blockerSet g)

/-- R155: a permit is ON exactly when its blocker set is empty. -/
def permitWordOf (b : Vector Byte 8) : Byte :=
  BitVec.ofNat 8 (b.toList.foldr (fun x n => (if x = 0 then 1 else 0) + 2 * n) 0)

/-- R156: bring the permits and the blocker sets in line with the inputs; PERMIT is set when the permit word changes.
The posting of R161 is `evaluatePermits`'s. -/
def State.settlePermits (s : State) : State :=
  { s with
    permits := { s.permits with blockers := s.blockerSets, permitWord := permitWordOf s.blockerSets }
    attention := if permitWordOf s.blockerSets = s.permits.permitWord then s.attention else s.attention ||| attPermit }

/-- The permits and the blocker sets already follow the inputs. -/
def State.permitsCurrent (s : State) : Bool :=
  decide (s.permits.blockers = s.blockerSets ∧ s.permits.permitWord = permitWordOf s.blockerSets)

/-- R156, R161: evaluate; a change of the permit word or of a blocker set posts the device block. -/
def State.evaluatePermits (s : State) : State :=
  if s.permitsCurrent then s else s.settlePermits.postBlock

/-- Evaluate where a posting of the device block is due in any case. -/
def State.evaluateAndPost (s : State) : State := s.settlePermits.postBlock

end Sys2Proof.Machine
end

