-- ==== Sys2Proof/Machine/LineOps.lean ====
section
/-! DEFINITION. The tag line controllers' own operations (chapter Tag Lines): the bytes and bits of a call, placing and
withdrawing requests, failed attempts, WAKE and QUIET. -/
namespace Sys2Proof.Machine

/-! ### Calls (R32, R33, Table 1 of Tag Lines) -/

/-- The address byte: the address in the low five bits, the number of ones among them in the high three. -/
def addressByte (a : Byte) : Byte :=
  let low := a.toNat % 32
  BitVec.ofNat 8 (32 * ((List.range 5).map (fun i => low / 2 ^ i % 2)).sum + low)

def LineCommand.code : LineCommand → Byte
  | .readBlocks _ _ => 0x21
  | .writeBlock _ _ => 0x22
  | .challenge _ => 0x31
  | .addUsage _ => 0x41

/-- The parameter bytes, least significant byte first (section 12.7). -/
def LineCommand.params : LineCommand → List Byte
  | .readBlocks first count => [first, count]
  | .writeBlock block data => block :: bytes32 data
  | .challenge v => bytes64 v
  | .addUsage a => bytes16 a

/-- A frame: the pace byte, the covered bytes and their check byte. -/
def frame (covered : List Byte) : List Byte := 0x55 :: covered ++ [checkByte covered]

/-- The call of a request. -/
def LineRequest.call (r : LineRequest) : List Byte :=
  frame ([addressByte r.address, r.command.code] ++ r.command.params)

/-- QUIET: a call to address 0 with the command 0x7E and no parameters (R44). -/
def quietCall : List Byte := frame [addressByte 0, 0x7E]

/-- A character: start bit low, eight data bits least significant first, stop bit high (section 3.1). -/
def charBits (b : Byte) : List Bool := false :: (List.range 8).map (fun i => b.getLsbD i) ++ [true]

/-- The bits of a call: break of 14 low bits, delimiter of 1 high bit, then the characters back to back (R32). -/
def frameBits (bytes : List Byte) : List Bool := List.replicate 14 false ++ [true] ++ bytes.flatMap charBits

/-- The bits a controller is sending in CALLING; the empty list when it sends nothing (R30, R44, R45). -/
def LineCtl.sendingBits (l : LineCtl) : List Bool :=
  if l.state = .calling then
    match l.activity with
    | .none => []
    | .call => (l.inFlight.map (fun t => frameBits t.request.call)).getD []
    | .quiet _ => frameBits quietCall
    | .wake _ _ _ => List.replicate 40 false
  else []

/-! ### Counts (R51) -/

/-- Raise the count of an attempt's error. LINE_STUCK and LINE_RESET are no attempts and have no count here. -/
def LineCounts.attempt (c : LineCounts) : LineError → LineCounts
  | .readback => { c with readback := satInc c.readback }
  | .noReply => { c with noReply := satInc c.noReply }
  | .pace => { c with pace := satInc c.pace }
  | .check => { c with check := satInc c.check }
  | .length => { c with length := satInc c.length }
  | .stuck => c
  | .reset => c

def LineCounts.transaction (c : LineCounts) : LineCounts := { c with transactions := satInc c.transactions }
def LineCounts.retry (c : LineCounts) : LineCounts := { c with retries := satInc c.retries }
def LineCounts.statusReply (c : LineCounts) : LineCounts := { c with status := satInc c.status }
def LineCounts.stuckEntry (c : LineCounts) : LineCounts := { c with stuck := satInc c.stuck }

/-! ### Line states -/

/-- Send a WAKE (R45). -/
def LineCtl.wake (l : LineCtl) (fromStuck : Bool) : LineCtl :=
  { l with state := .calling, activity := .wake 0 false fromStuck, pace := .none, inFlight := none }

/-- Enter IDLE with nothing in flight. -/
def LineCtl.toIdle (l : LineCtl) : LineCtl :=
  { l with state := .idle, activity := .none, pace := .none, inFlight := none }

/-- An attempt of the transaction in flight has ended in `e` (R37, R38): it is counted and the line rests. -/
def LineCtl.failAttempt (l : LineCtl) (e : LineError) : LineCtl :=
  { l with state := .resting, pace := .none, counts := l.counts.attempt e,
           inFlight := l.inFlight.map (fun t => { t with lastError := some e }) }

/-- Send the call of `t` (R37 step 1). -/
def LineCtl.sendCall (l : LineCtl) (t : Transaction) : LineCtl :=
  { l with state := .calling, activity := .call, pace := .none, inFlight := some t }

/-! ### Requests (R46, R48) -/

/-- Place a request at the tail of the queue; a QUIET line is woken for it (R45, R46), and leaving QUIET posts the
device block (R51). On a STUCK line nothing is placed: the callers fail the request at once (R43). -/
def State.placeLine (s : State) (l : LineId) (r : LineRequest) : State :=
  let s1 := s.modLine l (fun x => { x with queue := x.queue ++ [r] })
  if (s1.line l).state = .quiet then (s1.modLine l (fun x => x.wake false)).postBlock else s1

/-- A requester withdraws its requests from one line: queued ones are removed, one in flight is marked. -/
def LineCtl.withdraw (l : LineCtl) (q : Requester) : LineCtl :=
  { l with queue := l.queue.filter (fun r => decide (r.requester ≠ q)),
           inFlight := l.inFlight.map
             (fun t => if t.request.requester = q then { t with disposition := .withdrawn } else t) }

/-- A requester holds a request on at most one line; both are searched. -/
def State.withdrawLines (s : State) (q : Requester) : State :=
  { s with lineA := s.lineA.withdraw q, lineB := s.lineB.withdraw q }

/-! ### QUIET (R44) -/

/-- An enabled position has this line in its applied configuration. -/
def State.lineUsed (s : State) (l : LineId) : Bool :=
  s.positions.toList.any (fun x => x.enabled && decide (x.applied.line = l))

/-- R44: where all the conditions hold, start sending QUIET. -/
def State.examineQuiet (s : State) (l : LineId) : State :=
  let x := s.line l
  if x.state = .idle ∧ x.queue = [] ∧ s.lineUsed l = false ∧ s.settings.quiet = true ∧ x.heldBack = false then
    s.setLine l { x with state := .calling, activity := .quiet 0, pace := .none }
  else s

/-- Clear the held-back mark (R44, R50). -/
def State.clearHeldBack (s : State) (l : LineId) : State := s.modLine l (fun x => { x with heldBack := false })

/-- Complete a LINE_RESET task with the items of R49. -/
def State.completeReset (s : State) (w : ResetWait) : State :=
  s.complete w.slot .ok [w.found.code, flagByte w.failed, BitVec.ofNat 8 w.queued]

/-- End the LINE_RESET tasks that wait on this line: the device block is posted, then the results (R49, R51). That
several tasks end with one posting, in the order they were taken, is the model's choice (log 44). -/
def State.endResets (s : State) (l : LineId) : State :=
  if (s.line l).resetTasks = [] then s
  else
    let s1 := (s.modLine l (fun x => { x with resetTasks := [] })).postBlock
    (s.line l).resetTasks.foldl (fun s w => s.completeReset w) s1

end Sys2Proof.Machine
end

