-- ==== Sys2Proof/Machine/MeasureOps.lean ====
section
/-! DEFINITION. The measurement unit's own operations (chapter Signature Measurement): the six stages from samples to
deviation, the queue, and the calibration waiting list. Every stage works in integers (R89). -/
namespace Sys2Proof.Machine

/-! ### The arithmetic (R89 to R96) -/

/-- S, the sum of the samples (R90). -/
def sampleSum (xs : List Word16) : Int := (xs.map BitVec.toInt).sum

/-- A sample at either end of the scale makes the measurement SATURATED (R90). -/
def isSaturated (xs : List Word16) : Bool := xs.any (fun x => decide (x.toInt = 32767 ∨ x.toInt = -32768))

/-- A = round(S / 16) (R90). -/
def average (xs : List Word16) : Int := roundInt (sampleSum xs) 16

/-- N = A - O (R91). -/
def netCount (xs : List Word16) (c : CalRecord) : Int := average xs - c.offset.toInt

/-- R_meas = round(N x G / 65 536), clamped to 0..4 000 000 (R92), for N above 0. -/
def resistance (n : Int) (g : Word32) : Nat := clampNat 0 4000000 (roundNat (n.toNat * g.toNat) 65536)

/-- D = 2 000 000 + alpha x (t - 40) (R93). -/
def divisor (alpha : Word16) (t : Int) : Int := 2000000 + (alpha.toNat : Int) * (t - 40)

/-- R_20 = round(R_meas x 2 000 000 / D), clamped (R93). -/
def normalised (rMeas : Nat) (d : Int) : Nat := clampNat 0 4000000 (roundNat (rMeas * 2000000) d.toNat)

/-- W = beta x U, clamped to -250 000..250 000 (R94). -/
def wearTerm (beta : Word16) (counter : Word32) : Int :=
  clampInt (-250000) 250000 (beta.toInt * (counter.toNat / 1000 : Nat))

/-- R_exp = round(F x (1 000 000 + W) / 1 000 000), clamped to 1..4 000 000 (R94). -/
def expected (factory : Word32) (w : Int) : Nat :=
  clampNat 1 4000000 (roundNat (factory.toNat * (1000000 + w).toNat) 1000000)

/-- R_lo = floor(R_exp x (1 000 000 - tau) / 1 000 000) (R95). -/
def bandLow (rExp : Nat) (tau : Word32) : Nat := rExp * (1000000 - tau.toNat) / 1000000

/-- R_hi = ceil(R_exp x (1 000 000 + tau) / 1 000 000) (R95). -/
def bandHigh (rExp : Nat) (tau : Word32) : Nat := (rExp * (1000000 + tau.toNat) + 999999) / 1000000

/-- The deviation, truncated toward zero and clamped to -999 999..999 999 (R95). -/
def deviationOf (r20 rExp : Nat) : Int :=
  clampInt (-999999) 999999 ((((r20 : Int) - rExp) * 1000000).tdiv rExp)

/-- The outcome handed for a SIGNATURE request (R96): the finding, and the values reached. -/
structure SignatureOutcome where
  findings : Word16
  rMeas : Option Word32
  r20 : Option Word32
  rExp : Option Word32
  deviation : Option Word32
  temp : Option Word16
  deriving DecidableEq, Repr

/-- Stages 1 to 6 for a SIGNATURE request (R90 to R96); `t` is the temperature by source, before its clamp. -/
def signatureStages (xs : List Word16) (c : CalRecord) (t : Word16) (factory counter : Word32) (alpha beta : Word16)
    (tau : Word32) : SignatureOutcome :=
  if isSaturated xs then ⟨fSignatureRange, none, none, none, none, none⟩
  else if netCount xs c ≤ 0 then ⟨fSignatureRange, some 0, none, none, none, none⟩
  else
    let rMeas := resistance (netCount xs c) c.gain
    let t' := clampTemp t
    let r20 := normalised rMeas (divisor alpha t'.toInt)
    let rExp := expected factory (wearTerm beta counter)
    let out := r20 < bandLow rExp tau ∨ bandHigh rExp tau < r20
    ⟨if out then fSignature else 0, some (BitVec.ofNat 32 rMeas), some (BitVec.ofNat 32 r20),
      some (BitVec.ofNat 32 rExp), some (BitVec.ofInt 32 (deviationOf r20 rExp)), some t'⟩

/-- The outcome handed for a PRESENCE request (R96): the saturated mark, N from stage 2 on, and R_meas from stage 3. -/
structure PresenceOutcome where
  saturated : Bool
  net : Option Int
  rMeas : Option Nat
  deriving DecidableEq, Repr

/-- Stages 1 to 3 for a PRESENCE request (R90 to R92, R96). -/
def presenceStages (xs : List Word16) (c : CalRecord) : PresenceOutcome :=
  if isSaturated xs then ⟨true, none, none⟩
  else if netCount xs c ≤ 0 then ⟨false, some (netCount xs c), none⟩
  else ⟨false, some (netCount xs c), some (resistance (netCount xs c) c.gain)⟩

/-- R14: the element is present when the measurement is not SATURATED, N is above 0 and R_meas is below the limit. -/
def PresenceOutcome.present (o : PresenceOutcome) (limit : Nat) : Bool :=
  !o.saturated && (o.net.map (fun n => decide (0 < n))).getD false && (o.rMeas.map (fun r => decide (r < limit))).getD false

/-! ### The queue (R79, R81) -/

def State.modMeas (s : State) (f : MeasUnit → MeasUnit) : State := { s with meas := f s.meas }

/-- A request enters at the tail (R79). -/
def State.placeMeas (s : State) (r : MeasRequest) : State := s.modMeas (fun u => { u with queue := u.queue ++ [r] })

/-- The position a request was placed for, if any. -/
def MeasRequest.position : MeasRequest → Option PosId
  | ⟨_, .signature p _ _ _ _ _ _ _⟩ => some p
  | ⟨_, .presence p⟩ => some p
  | ⟨_, .calibrate _ _ _⟩ => none

/-- The task slot a CALIBRATE request was placed for. -/
def MeasRequest.slot : MeasRequest → Option SlotId
  | ⟨_, .signature _ _ _ _ _ _ _ _⟩ => none
  | ⟨_, .presence _⟩ => none
  | ⟨_, .calibrate k _ _⟩ => some k

/-- A position withdraws its measurement request (R81). -/
def State.withdrawMeas (s : State) (p : PosId) : State :=
  s.modMeas (fun u =>
    { u with queue := u.queue.filter (fun r => decide (r.position ≠ some p)),
             inFlight := u.inFlight.map
               (fun f => if f.request.position = some p then { f with disposition := .withdrawn } else f) })

/-! ### Calibration (R85) -/

/-- An enabled position's applied configuration names the channel. -/
def State.channelInUse (s : State) (c : ChannelId) : Bool :=
  s.positions.toList.any (fun x => x.enabled && decide (x.applied.channel = some c))

/-- A CALIBRATE request is in the queue or in flight. -/
def MeasUnit.calibrating (u : MeasUnit) : Bool :=
  u.queue.any (fun r => r.slot.isSome) || (u.inFlight.map (fun f => f.request.slot.isSome)).getD false

/-- R85: with no CALIBRATE in the queue or in flight, the oldest waiting task leaves the list, is checked again, and
enters the queue or ends IN_USE with the next taken in the same way. -/
def advanceWaiting : List MeasRequest → State → State
  | [], s => s.modMeas (fun u => { u with waiting := [] })
  | r :: rs, s =>
    if s.channelInUse r.channel then
      match r.slot with
      | some k => advanceWaiting rs (s.completeFree k .inUse)
      | none => advanceWaiting rs s
    else (s.modMeas (fun u => { u with waiting := rs })).placeMeas r

def State.advanceCalibration (s : State) : State :=
  if s.meas.calibrating then s else advanceWaiting s.meas.waiting s

end Sys2Proof.Machine
end

