-- ==== Sys2Proof/Machine/Identity.lean ====
section
/-! DEFINITION. The identity table and the retired list (chapter Identity Table and Retired List): sightings, binding,
contests, eviction, known counters and reject counts; appending to and removing from the retired list. -/
namespace Sys2Proof.Machine

/-- The UID bound at a position, if any. -/
def Position.boundUid (x : Position) : Option Word64 :=
  match x.uid with
  | .none => none
  | .bound u => some u
  | .read _ => none

/-! ### The table -/

def State.record (s : State) (u : Word64) : Option IdentityRecord := s.identity.find? (fun r => decide (r.uid = u))

/-- Change the record of UID `u` where it stands. -/
def State.modRecord (s : State) (u : Word64) (f : IdentityRecord → IdentityRecord) : State :=
  { s with identity := s.identity.map (fun r => if r.uid = u then f r else r) }

/-- The known counter K of UID `u`; 0 without a record. -/
def State.known (s : State) (u : Word64) : Word32 := ((s.record u).map (fun r => r.known)).getD 0

/-- The known counter of the record bound at a position, 0 when unbound (R117). -/
def State.knownOf (s : State) (x : Position) : Word32 := (x.boundUid.map s.known).getD 0

/-- The larger of two counters. -/
def maxWord (a b : Word32) : Word32 := if a.toNat < b.toNat then b else a

/-- Raise K of `u` to `c` if `c` is above it (R64, R104, R109, R117). -/
def State.raiseKnown (s : State) (u : Word64) (c : Word32) : State :=
  s.modRecord u (fun r => { r with known := maxWord r.known c })

/-- R120: position `q` leaves every contest set, that of UID `keep` apart. -/
def State.leaveContests (s : State) (q : PosId) (keep : Option Word64) : State :=
  let leave (r : IdentityRecord) := if keep = some r.uid then r else { r with contest := without r.contest q }
  { s with identity := s.identity.map leave }

/-- R115, R120: the record bound to `q` becomes unbound and its contest set is emptied. -/
def State.unbind (s : State) (q : PosId) : State :=
  let release (r : IdentityRecord) := if r.bound = some q then { r with bound := none, contest := [] } else r
  { s with identity := s.identity.map release }

/-- R116: take out the first unbound record. -/
def evictFirst (t : List IdentityRecord) : List IdentityRecord := t.eraseP (fun r => decide (r.bound = none))

/-- Room for one more record: a full table of 48 evicts (R116). -/
def State.makeRoom (s : State) : State :=
  if 48 ≤ s.identity.length then { s with identity := evictFirst s.identity, evictions := satInc s.evictions } else s

/-- Put the record of its UID in the last place (R114). -/
def State.placeRecordLast (s : State) (r : IdentityRecord) : State :=
  { s with identity := s.identity.filter (fun x => decide (x.uid ≠ r.uid)) ++ [r] }

def State.setUid (s : State) (q : PosId) (u : UidHeld) : State := s.modPos q (fun x => { x with uid := u })

/-- R114: the table takes a sighting of UID `u` from position `q` whole: it creates a record if needed, binds or
contests, and moves the record to the last place; the position's own mark follows in the same step (R112). -/
def State.sight (s : State) (q : PosId) (u : Word64) (cls : Word16) (c : Word32) : State :=
  match s.record u with
  | none =>
    ((s.makeRoom.placeRecordLast
      { uid := u, classCode := cls, bound := some q, known := c, rejects := 0, contest := [] }).touchBlock).setUid q
      (.bound u)
  | some r =>
    match r.bound with
    | none => ((s.placeRecordLast { r with bound := some q, classCode := cls }).touchBlock).setUid q (.bound u)
    | some p =>
      if p = q then (s.placeRecordLast { r with classCode := cls }).setUid q (.bound u)
      else (s.placeRecordLast { r with contest := enqueueNew r.contest q }).setUid q (.read u)

/-! ### The retired list (R121 to R124) -/

/-- An entry is protected while its UID is the bound UID of a BARRED position (R121). -/
def State.isProtected (s : State) (u : Word64) : Bool :=
  s.positions.toList.any (fun x => decide (x.verdict = .barred) && decide (x.boundUid = some u))

def State.protectedCount (s : State) : Nat := (s.retired.filter (fun u => s.isProtected u)).length

/-- R122, R123: append a UID unless it is on the list; a full list of 128 first drops its oldest unprotected entry. -/
def State.retire (s : State) (u : Word64) : State :=
  if u ∈ s.retired then s
  else if 128 ≤ s.retired.length then
    { s with retired := s.retired.eraseP (fun v => !s.isProtected v) ++ [u], retiredDropped := satInc s.retiredDropped }
  else { s with retired := s.retired ++ [u] }

/-- R124: take a UID off the list. -/
def State.unretire (s : State) (u : Word64) : State := { s with retired := without s.retired u }

end Sys2Proof.Machine
end

