-- ==== Sys2Proof/Machine/VerdictUnit.lean ====
section
/-! DEFINITION. The verdict unit (chapter Verdicts and Screening): applying a result (R130 to R142), grace (R143,
R144), the release of a barred position (R146), and the screening rules (R148 to R150). -/
namespace Sys2Proof.Machine

/-- The verdict limits a result carries (R130). -/
structure Limits where
  trip : Nat
  recover : Nat
  forgive : Nat
  latch : Nat
  deriving DecidableEq, Repr

/-- The limits without a class record: T = 1, Q = 0, P = 255, L = 3 (R130). -/
def Limits.noClass : Limits := { trip := 1, recover := 0, forgive := 255, latch := 3 }

def ClassRecord.limits (c : ClassRecord) : Limits :=
  { trip := c.trip.toNat, recover := c.recover.toNat, forgive := c.forgive.toNat, latch := c.latch.toNat }

def limitsOf : Option ClassRecord → Limits
  | none => Limits.noClass
  | some c => c.limits

/-- The class record of a code (R163). -/
def State.classOf (s : State) (code : Word16) : Option ClassRecord :=
  s.classes.find? (fun c => decide (c.code = code))

/-- The kinds of result (R69); the code is that of the INSPECT result. -/
inductive ResultKind where
  | findings | clean | inconclusive | absent
  deriving DecidableEq, Repr

def ResultKind.code : ResultKind → Byte
  | .findings => 1 | .clean => 2 | .inconclusive => 3 | .absent => 4

/-- A result handed to the verdict unit (R130). `concerned` is the UID of the record concerned. -/
structure Result where
  kind : ResultKind
  concerned : Option Word64
  findings : Word16
  reason : Reason
  limits : Limits
  deriving DecidableEq, Repr

/-- The grace a refill gives: the applied grace value, 0 at a position without a cycle input (R143). -/
def Position.refill (x : Position) : Word16 := if x.applied.cycleInput = none then 0 else x.applied.grace

/-- CLEARED with grace refilled, or EXPIRED, as the wear flag stands (R138, R139). -/
def Position.clear (x : Position) : Position :=
  if x.wear then { x with verdict := .expired } else { x with verdict := .cleared, grace := x.refill }

/-- Both streaks and grace left 0, with a new state: the common part of rejecting, barring and vacating. -/
def Position.settle (x : Position) (v : Verdict) : Position := { x with verdict := v, doubt := 0, clean := 0, grace := 0 }

/-- R132: enter BARRED and hand the bound UID to the retired list. -/
def State.bar (s : State) (p : PosId) : State :=
  let s1 := s.modPos p (fun x => x.settle .barred)
  match (s.pos p).boundUid with
  | none => s1
  | some u => s1.retire u

/-- R132, R134: raise the reject count of the record concerned, with the cap at 15, and make the bar test. -/
def State.countReject (s : State) (p : PosId) (r : Result) : State :=
  match r.concerned with
  | none => s
  | some u =>
    let s1 := s.modRecord u (fun x => { x with rejects := min 15 (x.rejects + 1) })
    if r.limits.latch ≤ ((s1.record u).map (fun x => x.rejects)).getD 0 then s1.bar p else s1

/-- R134, R135: reject the part. -/
def State.reject (s : State) (p : PosId) (r : Result) : State :=
  (s.modPos p (fun x => x.settle .rejected)).countReject p r

/-- R136: a persistent result raises doubt; R135: the trip is tested where the state is not REJECTED. -/
def State.doubtResult (s : State) (p : PosId) (r : Result) : State :=
  let s1 := s.modPos p (fun x => { x with doubt := satInc x.doubt, clean := 0 })
  match (s.pos p).verdict with
  | .arriving | .cleared | .expired | .doubtful =>
    let s2 := s1.modPos p (fun x => { x with verdict := .doubtful })
    if r.limits.trip ≤ (s2.pos p).doubt.toNat then s2.reject p r else s2
  | .disabled | .vacant | .rejected | .barred => s1

/-- R140: one reject is forgiven when a clean streak that rose is a whole multiple of P. -/
def State.forgive (s : State) (p : PosId) (before : Word16) (r : Result) : State :=
  match r.concerned with
  | none => s
  | some u =>
    if (s.pos p).clean ≠ before ∧ (s.pos p).clean.toNat % r.limits.forgive = 0 then
      s.modRecord u (fun x => { x with rejects := x.rejects - 1 })
    else s

/-- R138, R139, R140: a CLEAN result by state. -/
def State.cleanResult (s : State) (p : PosId) (r : Result) : State :=
  let x := s.pos p
  let s1 := s.setPos p { x with clean := satInc x.clean, doubt := 0 }
  match x.verdict with
  | .arriving | .doubtful => s1.modPos p Position.clear
  | .rejected =>
    if 0 < r.limits.recover ∧ r.limits.recover ≤ (satInc x.clean).toNat then s1.modPos p Position.clear else s1
  | .cleared =>
    (s1.forgive p x.clean r).modPos p (fun y => if y.wear then { y with verdict := .expired } else y)
  | .expired =>
    (s1.forgive p x.clean r).modPos p
      (fun y => if y.wear then y else { y with verdict := .cleared, grace := y.refill })
  | .disabled | .vacant | .barred => s

/-- R131: apply a result whole, by the first case that fits. -/
def State.applyResult (s : State) (p : PosId) (r : Result) : State :=
  let s0 := s.modPos p (fun x => { x with findings := r.findings, reason := r.reason })
  if (s.pos p).verdict = .barred then s0
  else if hasAny r.findings fRetired = true ∧ r.concerned ≠ none then s0.bar p
  else if hasAny r.findings immediateMask then s0.reject p r
  else if r.findings = fSilent then
    s0.modPos p (fun x => { x with verdict := .doubtful, doubt := satInc x.doubt, clean := 0, grace := 0 })
  else if r.findings ≠ 0 then s0.doubtResult p r
  else
    match r.kind with
    | .clean => s0.cleanResult p r
    | .absent => s0.modPos p (fun x => x.settle .vacant)
    | .findings => s0
    | .inconclusive => s0

/-- R145, R121: apply a result, tell the permit unit, and post the device block for a change of the retired list. -/
def State.handResult (s : State) (p : PosId) (r : Result) : State :=
  let s1 := s.applyResult p r
  if s1.retired = s.retired then s1.evaluatePermits else s1.evaluatePermits.postBlock

/-- R111: the wear flag as the kept usage limit and K stand. -/
def State.wearNow (s : State) (x : Position) : Bool :=
  decide (x.boundUid ≠ none ∧ x.usageLimit ≠ 0 ∧ x.usageLimit.toNat ≤ (s.knownOf x).toNat)

/-- R111: evaluate the wear flag of a position. -/
def State.evaluateWear (s : State) (p : PosId) : State := s.modPos p (fun x => { x with wear := s.wearNow x })

/-- R144: a pulse lowers grace left in ARRIVING and DOUBTFUL, staying at 0. -/
def Position.useGrace (x : Position) : Position :=
  match x.verdict with
  | .arriving | .doubtful => { x with grace := if x.grace = 0 then 0 else x.grace - 1 }
  | .disabled | .vacant | .cleared | .rejected | .barred | .expired => x

/-- R146, R127: release a BARRED position: its UID leaves the retired list, the reject count becomes 0, the position
is ARRIVING with grace refilled and owed a cycle; the permit unit is told and the state half is posted. -/
def State.releasePosition (s : State) (p : PosId) (u : Word64) : State :=
  let s1 := (s.unretire u).modRecord u (fun r => { r with rejects := 0 })
  let s2 := s1.modPos p (fun x => { x with verdict := .arriving, doubt := 0, clean := 0, grace := x.refill, owed := true })
  s2.evaluatePermits.postHalf p

/-! ### Screening (R148 to R150) -/

/-- The screening inputs of a cycle (Table 2 of The Inspection Cycle), with the class code of the UID held. -/
structure ScreenInputs where
  deviation : Option Int
  r20 : Option Int
  clock : Int
  temp : Int
  usageThousands : Int
  pending : Int
  retries : Int
  classCode : Word16
  deriving DecidableEq, Repr

def ScreenInputs.value (i : ScreenInputs) : Quantity → Option Int
  | .deviation => i.deviation
  | .r20 => i.r20
  | .clock => some i.clock
  | .temp => some i.temp
  | .usageThousands => some i.usageThousands
  | .pending => some i.pending
  | .retries => some i.retries

/-- The value lies inside or outside lo..hi, both bounds inclusive. -/
def Sense.holds (k : Sense) (lo hi v : Int) : Bool :=
  match k with
  | .inside => decide (lo ≤ v ∧ v ≤ hi)
  | .outside => decide (v < lo ∨ hi < v)

/-- R149: a rule matches. -/
def Rule.isMatch (r : Rule) (i : ScreenInputs) : Bool :=
  match i.value r.quantity with
  | none => false
  | some v => r.sense.holds r.lo.toInt r.hi.toInt v && decide (r.classCode = 0 ∨ r.classCode = i.classCode)

/-- R150: a group fires when it has an enabled rule and every enabled rule in it matched. -/
def groupFires (rules : List Rule) (g : Fin 4) (i : ScreenInputs) : Bool :=
  let mine := rules.filter (fun r => r.enabled && decide (r.group = g))
  !mine.isEmpty && mine.all (fun r => r.isMatch i)

/-- The SCREEN findings of a cycle. -/
def screenFindings (rules : List Rule) (i : ScreenInputs) : Word16 :=
  (List.finRange 4).foldl (fun f g => withFinding f (groupFires rules g i) (fScreen g)) 0

end Sys2Proof.Machine
end

