-- ==== Sys2Proof/Machine/Release.lean ====
section
/-! DEFINITION. RELEASE (R146) and RETIRED_REMOVE (R127) of a UID on the retired list, up to the sequencer's choice, and
the two taken between a cycle's finding RETIRED and its hand-off (R147, R127; log 42). -/
namespace Sys2Proof.Machine

/-- Post the device block when the retired list has changed (R121). -/
def State.postIfRetiredChanged (s : State) (old : List Word64) : State :=
  if s.retired = old then s else s.postBlock

/-- The position that holds UID `u` BARRED. -/
def State.barredWith (s : State) (u : Word64) : Option PosId :=
  allPositions.find? (fun p => decide ((s.pos p).verdict = .barred ∧ (s.pos p).boundUid = some u))

/-- The reject count of a UID's record. -/
def State.rejectsOf (s : State) (u : Word64) : Nat := ((s.record u).map (fun r => r.rejects)).getD 0

/-- R146: release position `p`, BARRED with `u`, and complete the task. -/
def State.releaseHeld (s : State) (k : SlotId) (p : PosId) (u : Word64) : State :=
  ((s.releasePosition p u).postIfRetiredChanged s.retired).complete k .ok
    ([BitVec.ofNat 8 p.val, BitVec.ofNat 8 (s.rejectsOf u)] ++ bytes64 u)

/-- R127: take `u` off the list, release the position that held it BARRED, if any, and complete the task. -/
def State.removeUid (s : State) (k : SlotId) (u : Word64) (held : Option PosId) : State :=
  match held with
  | none => (s.unretire u).postBlock.complete k .ok (bytes64 u ++ [0, 0xFF])
  | some p => ((s.releasePosition p u).postBlock).complete k .ok (bytes64 u ++ [1, BitVec.ofNat 8 p.val])

/-! ### Taken before the hand-off -/

/-- The task at the head of the watch queue takes `u`, bound at position `p`, off the retired list: a RELEASE of `p`, or a
RETIRED_REMOVE of `u`. The answer is the state after it. -/
def State.removalAtHead (s : State) (p : PosId) (u : Word64) : Option State :=
  match s.takeReady with
  | none => none
  | some (k, t) =>
    if (t.slot k).kind = 0x0B ∧ finOfCode 24 (byteAt (t.payload k) 0) = some p ∧ (t.pos p).verdict = .barred then
      some (t.releaseHeld k p u)
    else if (t.slot k).kind = 0x0A ∧ word64At (t.payload k) 0 = u then some (t.removeUid k u (t.barredWith u))
    else none

/-- R147, R127: a cycle of `p` has found its bound UID RETIRED and has not handed its result. Where the head of the watch
queue would take the UID off the list, the task unit may take it now: whether it does is free (log 42). -/
def State.beforeHandOff (s : State) (p : PosId) : State :=
  match (s.pos p).boundUid with
  | none => s
  | some u =>
    match s.removalAtHead p u with
    | none => s
    | some t => if Config.removalFirst s.free then t.draw else s.draw

end Sys2Proof.Machine
end

