-- ==== Sys2Proof/Machine/Binding.lean ====
section
/-! DEFINITION. What the sequencers share: giving up usage and ending a binding (R13, R110), placing a line request
that may meet a STUCK line (R43), and completing the INSPECT tasks of a position (R74, R76). -/
namespace Sys2Proof.Machine

/-- R110: pending and the in-flight amount move to lost and the commit status becomes none. -/
def Position.giveUpUse (x : Position) : Position :=
  { x with lost := x.lost + x.pendingUse.setWidth 32 + x.inFlight.setWidth 32, pendingUse := 0, inFlight := 0,
           unconfirmed := false }

/-- The position's part of a departure (R13, R111): usage given up, streaks, grace and missed roll calls 0, VACANT, no
UID held. -/
def Position.depart (x : Position) : Position :=
  { x.giveUpUse.settle .vacant with
    missed := 0, uid := .none, classCode := 0, known := 0, wear := false, usageLimit := 0, commitWaiting := [] }

/-- R13: the record becomes unbound with its contest set emptied, and the position gives its binding up. -/
def State.dropBinding (s : State) (p : PosId) : State :=
  (if (s.pos p).boundUid = none then s else (s.unbind p).touchBlock).modPos p Position.depart

/-- R13: a binding ends by departure, at once: the permit unit is told of VACANT before the work goes on (R145, R156),
and USAGE_COMMIT tasks that have no commit yet end REFUSED (R103). -/
def State.endBinding (s : State) (p : PosId) : State :=
  (s.dropBinding p).evaluatePermits.completeAllFree (s.pos p).commitWaiting .refused

/-- The line of a position's applied configuration. -/
def Position.line (x : Position) : LineId := x.applied.line

/-- The request of position `p` for a command, to its applied tag address. -/
def State.requestOf (s : State) (p : PosId) (c : LineCommand) : LineRequest :=
  { requester := .position p, address := (s.pos p).applied.address, command := c }

/-- The applied line of `p` is STUCK: a request would fail at once (R43). -/
def State.onStuckLine (s : State) (p : PosId) : Bool := decide ((s.line (s.pos p).line).state = .stuck)

/-- Place a request of position `p` on its applied line. -/
def State.placeFor (s : State) (p : PosId) (c : LineCommand) : State :=
  s.placeLine (s.pos p).line (s.requestOf p c)

/-- The data of an INSPECT result (R76, Table 6 of Formats). Without a cycle run the reason is ABORTED (R74). -/
def inspectData (p : PosId) (x : Position) (ran : Bool) (kind : Byte) : List Byte :=
  [BitVec.ofNat 8 p.val, flagByte ran, kind, x.verdict.code] ++ bytes32 x.cycleNumber ++ bytes16 x.findings ++
    [(if ran then x.reason else Reason.aborted).code, x.uid.code] ++ bytes64 x.uid.value ++ bytes16 x.clockRatio ++ bytes32 x.deviation

/-- Complete INSPECT tasks of position `p` with status OK and the outcome as posted. -/
def State.completeInspects (s : State) (p : PosId) (ks : List SlotId) (ran : Bool) (kind : Byte) : State :=
  ks.foldl (fun t k => t.complete k .ok (inspectData p (s.pos p) ran kind)) s

/-! ### The cycle context -/

/-- The context as a cycle starts with it (R52, R53). -/
def CycleContext.start (tasks : List SlotId) : CycleContext :=
  { stage := .identify, status := none, n := 0, blocks := [], ratio := 0, identifyRetries := 0, classCopy := none,
    findings := 0, reason := .none, challenge := none, challengeRetries := 0, r20 := none, deviation := none,
    temp := none, tasks := tasks }

/-- The context of the running cycle. -/
def State.context (s : State) (p : PosId) : CycleContext := ((s.pos p).cycle).getD (CycleContext.start [])

def State.modContext (s : State) (p : PosId) (f : CycleContext → CycleContext) : State :=
  s.modPos p (fun x => { x with cycle := x.cycle.map f })

end Sys2Proof.Machine
end

