-- ==== Sys2Proof/Machine/CycleStages.lean ====
section
/-! DEFINITION. The stages of an inspection cycle (chapter The Inspection Cycle), each up to the point where the cycle
waits or ends: start, IDENTIFY, CHECKS, CHALLENGE, SIGNATURE, PRESENCE, SCREEN and the hand-off. -/
namespace Sys2Proof.Machine

/-! ### VERDICT: the hand-off (R69) -/

/-- R55: the items of the state half taken from the cycle: the clock ratio, and the tag temperature when block 6 was
received. -/
def Position.recordCycle (x : Position) (c : CycleContext) (known : Word32) : Position :=
  { x with
    clockRatio := c.ratio
    tagTemp := if 7 ≤ c.n then clampTemp (tagTemperature c.blocks) else x.tagTemp
    known := known
    cyclesCompleted := x.cyclesCompleted + 1
    seq := .idle
    cycle := none }

/-- R69: the wear flag is evaluated, the result is handed to the verdict unit and the permit unit follows, the state
half is posted, and the attached INSPECT tasks are completed. The sequencer is then IDLE; its choice is the caller's. -/
def State.endCycle (s : State) (p : PosId) (kind : ResultKind) (findings : Word16) (reason : Reason) (lim : Limits) :
    State :=
  let c := s.context p
  let s2 := (s.evaluateWear p).handResult p
    { kind := kind, concerned := (s.pos p).boundUid, findings := findings, reason := reason, limits := lim }
  let s3 := (s2.modPos p (fun x => x.recordCycle c (s2.knownOf x))).postHalf p
  s3.completeInspects p c.tasks true kind.code

/-- A conclusive result with findings. -/
def State.endFindings (s : State) (p : PosId) (findings : Word16) (lim : Limits) : State :=
  s.endCycle p .findings findings .none lim

/-- R70: an inconclusive result carries its reason and no findings. -/
def State.endInconclusive (s : State) (p : PosId) (reason : Reason) : State :=
  s.endCycle p .inconclusive 0 reason (limitsOf (s.context p).classCopy)

/-! ### SCREEN (R68) -/

/-- The screening inputs as Table 2 hands them. -/
def State.screenInputs (s : State) (p : PosId) : ScreenInputs :=
  let c := s.context p
  { deviation := c.deviation.map BitVec.toInt
    r20 := c.r20.map BitVec.toInt
    clock := c.ratio.toNat
    temp := ((c.temp).getD (clampTemp (tagTemperature c.blocks))).toInt
    usageThousands := ((tagCounter c.blocks).toNat / 1000 : Nat)
    pending := (s.pos p).pendingUse.toNat
    retries := (c.identifyRetries + c.challengeRetries : Nat)
    classCode := tagClass c.blocks }

/-- R68, R69: the groups that fire add their findings, and the result is FINDINGS or CLEAN. -/
def State.enterScreen (s : State) (p : PosId) : State :=
  let c := s.context p
  let f := c.findings ||| screenFindings s.rules.toList (s.screenInputs p)
  if f = 0 then s.endCycle p .clean 0 .none (limitsOf c.classCopy) else s.endFindings p f (limitsOf c.classCopy)

/-! ### SIGNATURE (R66) -/

/-- R66: left out for mode NONE; NO_CHANNEL without a channel; SIGNATURE for a factory value of 0; otherwise a
measurement request with the values the arithmetic needs. -/
def State.enterSignature (s : State) (p : PosId) : State :=
  let c := s.context p
  match c.classCopy with
  | none => s.enterScreen p
  | some k =>
    match k.mode with
    | .none => s.enterScreen p
    | .required =>
      match (s.pos p).applied.channel with
      | none => s.endInconclusive p .noChannel
      | some ch =>
        if tagFactory c.blocks = 0 then
          (s.modContext p (fun c => { c with findings := c.findings ||| fSignature })).enterScreen p
        else
          (s.modContext p (fun c => { c with stage := .signature })).placeMeas
            { channel := ch
              kind := .signature p (s.pos p).applied.tempSource (tagTemperature c.blocks) (tagFactory c.blocks)
                (tagCounter c.blocks) k.alpha k.beta k.tau }

/-- R66, R96: the outcome is taken into the context, the values reached replace the posted ones, and the cycle enters
SCREEN. -/
def State.signatureOutcome (s : State) (p : PosId) (o : SignatureOutcome) : State :=
  let s1 := s.modPos p (fun x =>
    { x with rMeas := o.rMeas.getD x.rMeas, r20 := o.r20.getD x.r20, rExp := o.rExp.getD x.rExp,
             deviation := o.deviation.getD x.deviation })
  (s1.modContext p (fun c =>
    { c with findings := c.findings ||| o.findings, r20 := o.r20, deviation := o.deviation, temp := o.temp })).enterScreen p

/-! ### CHALLENGE (R63 to R65) -/

/-- R65: the CHALLENGE transaction failed: inconclusive LINK, and the last line error is set. -/
def State.challengeFailed (s : State) (p : PosId) (e : LineError) : State :=
  (s.modPos p (fun x => { x with lastLineError := some e })).endInconclusive p .link

/-- R63: the key slot is examined; with a VALID slot a fresh challenge is drawn and placed on the line. -/
def State.enterChallenge (s : State) (p : PosId) (k : ClassRecord) : State :=
  match s.keys.slots[k.keySlot.val] with
  | .empty => s.endInconclusive p .noKey
  | .invalid => s.endInconclusive p .noKey
  | .valid _ =>
    let v := Config.noise s.free
    let s1 := s.draw.modContext p (fun c => { c with stage := .challenge, challenge := some v })
    if s1.onStuckLine p then s1.challengeFailed p .stuck else s1.placeFor p (.challenge v)

/-- R26, R173: the expected response from the class key, the UID, the challenge and the counter of IDENTIFY. -/
def expectedResponse (key : Key) (c : CycleContext) : Word64 :=
  Config.response (Config.partKey key (tagUid c.blocks)) (c.challenge.getD 0) (tagCounter c.blocks)

/-- R64: a reply is judged against the key slot as it stands when the reply arrives. -/
def State.challengeReply (s : State) (p : PosId) (status : Byte) (data : List Byte) (retries : Nat) : State :=
  let s1 := s.modContext p (fun c => { c with challengeRetries := retries })
  let c := s1.context p
  match c.classCopy with
  | none => s1.endInconclusive p .noKey
  | some k =>
    match s1.keys.slots[k.keySlot.val] with
    | .empty => s1.endInconclusive p .noKey
    | .invalid => s1.endInconclusive p .noKey
    | .valid key =>
      if status = 0 ∧ word64At data 0 = expectedResponse key c then
        match (s1.pos p).boundUid with
        | none => s1.enterSignature p
        | some u => (s1.raiseKnown u (tagCounter c.blocks)).enterSignature p
      else s1.endFindings p (c.findings ||| fResponse) k.limits

/-! ### CHECKS (R56 to R62) -/

/-- R56: the findings of the format checks. -/
def formatFindings (c : CycleContext) : Word16 :=
  if c.n < 2 then fUnreadable
  else withFinding (withFinding 0 (!uidWellFormed (tagUid c.blocks)) fIdFormat) (decide (c.n < 7)) fUnreadable

/-- R56, R120: the effect of a reply that fails the format checks on the binding, and the hand-off. -/
def State.formatFailed (s : State) (p : PosId) (f : Word16) : State :=
  let c := s.context p
  let x := s.pos p
  let kept := decide (2 ≤ c.n) && decide (x.boundUid = some (tagUid c.blocks))
  let s1 :=
    if kept then
      s.modPos p (fun x => { x with classCode := ((s.record (tagUid c.blocks)).map (fun r => r.classCode)).getD 0 })
    else
      let s2 := s.leaveContests p none
      let s3 := if x.boundUid = none then s2 else s2.endBinding p
      s3.modPos p (fun x => { x with uid := .none, classCode := 0 })
  s1.endFindings p f Limits.noClass

/-- R109: an amount found not added returns to pending, the excess to dropped. -/
def Position.returnAmount (x : Position) : Position :=
  let sum := x.pendingUse.toNat + x.inFlight.toNat
  { x with pendingUse := BitVec.ofNat 16 (min 65535 sum), dropped := x.dropped + BitVec.ofNat 32 (sum - 65535),
           inFlight := 0 }

/-- The tag has taken the in-flight amount: committed total rises by it. -/
def Position.takeAmount (x : Position) : Position :=
  { x with committed := x.committed + x.inFlight.setWidth 32, inFlight := 0 }

/-- The in-flight amount is given up to lost (R105). -/
def Position.loseAmount (x : Position) : Position :=
  { x with lost := x.lost + x.inFlight.setWidth 32, inFlight := 0 }

/-- `v` equals `k` plus the amount, formed in full without wrapping (R104, R107, R109). -/
def sumsTo (k : Word32) (a : Word16) (v : Word32) : Bool := decide (v.toNat = k.toNat + a.toNat)

/-- R109: an UNCONFIRMED commit is resolved against the counter `c` and K, and the wear flag is evaluated (R111); the
finding, if any, is handed back. -/
def State.resolveCommit (s : State) (p : PosId) (u : Word64) (c : Word32) : State × Word16 :=
  let x := s.pos p
  let settled (t : State) (f : Position → Position) : State :=
    (t.modPos p (fun x => { f x with unconfirmed := false })).evaluateWear p
  if x.unconfirmed = false then (s, 0)
  else if sumsTo (s.known u) x.inFlight c then (settled (s.raiseKnown u c) Position.takeAmount, 0)
  else if c = s.known u then (settled s Position.returnAmount, 0)
  else (settled (s.raiseKnown u c) Position.takeAmount, fUsageMismatch)

/-- R57, R15: identity settled: an arrival departs the old binding, the sighting binds or contests, and an arriving
position becomes ARRIVING with its streaks 0 and grace refilled; the usage limit is kept while bound (R111). -/
def State.settleIdentity (s : State) (p : PosId) : State :=
  let c := s.context p
  let u := tagUid c.blocks
  let s1 := s.leaveContests p (some u)
  let x := s1.pos p
  let arrival := decide (x.boundUid ≠ some u)
  let s2 := if arrival = true ∧ x.boundUid ≠ none then s1.endBinding p else s1
  let s3 := s2.sight p u (tagClass c.blocks) (tagCounter c.blocks)
  let s4 := s3.modPos p (fun x =>
    { x with classCode := tagClass c.blocks, usageLimit := if x.boundUid = none then 0 else tagLimit c.blocks })
  if arrival then
    (s4.modPos p (fun x => { x.settle .arriving with grace := x.refill })).evaluatePermits
  else s4

/-- R59: the position contests the UID held, or its own binding is contested. -/
def State.contested (s : State) (p : PosId) (u : Word64) : Bool :=
  match (s.pos p).boundUid with
  | none => true
  | some _ => ((s.record u).map (fun r => !r.contest.isEmpty)).getD false

/-- R62: an immediate finding ends the cycle (after RETIRED the task unit may take the UID off the list before the
hand-off, R147), a class without a record is inconclusive, and otherwise the cycle enters CHALLENGE. That such a task
is taken after all the checks, with the cycle in CHECKS, is the model's choice (log 42). -/
def State.decideChecks (s : State) (p : PosId) (f : Word16) (copy : Option ClassRecord) : State :=
  if hasAny f immediateMask then
    (if hasAny f fRetired then s.beforeHandOff p else s).endFindings p f (limitsOf copy)
  else
    match copy with
    | none => s.endInconclusive p .noClass
    | some k => s.enterChallenge p k

/-- R58 to R62: the retired, contest, class, usage and clock checks, and the decision how the cycle goes on. -/
def State.runChecks (s : State) (p : PosId) : State :=
  let c := s.context p
  let u := tagUid c.blocks
  let code := tagClass c.blocks
  let accepted := decide (code ∈ (s.pos p).applied.accept)
  let copy := s.classOf code
  let f1 := withFinding 0 (decide (u ∈ s.retired)) fRetired
  let f2 := withFinding f1 (s.contested p u) fDuplicate
  let f3 := withFinding f2 (!accepted) fClass
  let bound := decide ((s.pos p).boundUid = some u)
  let (s1, mismatch) := if bound then s.resolveCommit p u (tagCounter c.blocks) else (s, 0)
  let f4 := f3 ||| mismatch
  let f5 := withFinding f4 (bound && decide ((tagCounter c.blocks).toNat < (s1.known u).toNat)) fRegression
  let offBand := match copy with
    | none => false
    | some k => decide (c.ratio.toNat < k.bandLo.toNat ∨ k.bandHi.toNat < c.ratio.toNat)
  let f6 := withFinding f5 offBand fClock
  (s1.modContext p (fun c => { c with classCopy := copy, findings := f6 })).decideChecks p f6 copy

/-- CHECKS as one piece of work (section 4.3). -/
def State.checks (s : State) (p : PosId) : State :=
  if formatFindings (s.context p) = 0 then (s.settleIdentity p).runChecks p
  else s.formatFailed p (formatFindings (s.context p))

/-! ### PRESENCE (R14, R71) -/

/-- R71: without a channel the result is ABSENT; otherwise a presence measurement is placed. That the UID held and the
class code are cleared here, before the result, is the model's choice (log 17). -/
def State.enterPresence (s : State) (p : PosId) : State :=
  let s1 := s.modPos p (fun x => { x with uid := .none, classCode := 0 })
  match (s.pos p).applied.channel with
  | none => s1.endCycle p .absent 0 .none Limits.noClass
  | some ch =>
    (s1.modContext p (fun c => { c with stage := .presence })).placeMeas { channel := ch, kind := .presence p }

/-- R14, R71: the element is judged with the presence limit in force; R_meas is posted when it was reached. -/
def State.presenceOutcome (s : State) (p : PosId) (o : PresenceOutcome) : State :=
  let s1 := s.modPos p (fun x => { x with rMeas := (o.rMeas.map (BitVec.ofNat 32)).getD x.rMeas })
  if o.present s.settings.presenceLimit.toNat then s1.endFindings p fSilent Limits.noClass
  else s1.endCycle p .absent 0 .none Limits.noClass

/-! ### IDENTIFY (R53, R54) -/

/-- R54: a reply is taken into the context as R22 lays down; missed roll calls becomes 0, and the cycle enters CHECKS. -/
def State.identifyReply (s : State) (p : PosId) (status : Byte) (data : List Byte) (ratio : Word16) (retries : Nat) :
    State :=
  let carries := decide (status = 0 ∨ status = 6)
  let s1 := s.modPos p (fun x => { x with missed := 0 })
  (s1.modContext p (fun c =>
    { c with stage := .checks, status := some status, n := if carries then (byteAt data 0).toNat else 0,
             blocks := if carries then data.drop 1 else [], ratio := ratio, identifyRetries := retries })).checks p

/-- R54, R12, R14: IDENTIFY failed after its retries. -/
def State.identifyFailed (s : State) (p : PosId) (e : LineError) (retries : Nat) : State :=
  let s1 := (s.modPos p (fun x => { x with lastLineError := some e })).modContext p
    (fun c => { c with identifyRetries := retries })
  if e = .noReply then
    let s2 := s1.leaveContests p none
    if (s2.pos p).boundUid = none then s2.enterPresence p
    else if (s2.pos p).missed = 0 then (s2.modPos p (fun x => { x with missed := 1 })).endInconclusive p .link
    else (s2.endBinding p).enterPresence p
  else s1.endInconclusive p .link

/-- R53: a cycle starts: the number is raised, the timer restarts, the context is created with the INSPECT tasks that
wait, the state half is posted, and IDENTIFY is placed; a STUCK line fails it at once. -/
def State.startCycle (s : State) (p : PosId) : State :=
  let s1 := (s.modPos p (fun x =>
    { x with seq := .cycle, cycleNumber := x.cycleNumber + 1, owed := false, timer := .running x.applied.interval,
             cycle := some (CycleContext.start x.inspectWaiting), inspectWaiting := [] })).postHalf p
  if s1.onStuckLine p then s1.identifyFailed p .stuck 0 else s1.placeFor p (.readBlocks 0 7)

end Sys2Proof.Machine
end

