-- ==== Sys2Proof/Machine/Usage.lean ====
section
/-! DEFINITION. Usage commits (chapter Usage Accounting): starting a commit, the tag's answer, the confirm read, the
UNCONFIRMED outcome and the end of a commit; and the pulse of one position. -/
namespace Sys2Proof.Machine

/-- The outcomes of a commit (R103; Table 2 of Formats). -/
inductive CommitOutcome where
  | none | committed | mismatch | limit | tagStatus | returned | unconfirmed
  deriving DecidableEq, Repr

def CommitOutcome.code : CommitOutcome → Byte
  | .none => 0 | .committed => 1 | .mismatch => 2 | .limit => 3 | .tagStatus => 4 | .returned => 5 | .unconfirmed => 6

/-- OK for every outcome except UNCONFIRMED, which ends with LINE_FAILED (R103). -/
def CommitOutcome.status : CommitOutcome → TaskStatus
  | .unconfirmed => .lineFailed
  | .none | .committed | .mismatch | .limit | .tagStatus | .returned => .ok

/-- The data of a USAGE_COMMIT result (R103, Table 6 of Formats). -/
def commitData (p : PosId) (x : Position) (o : CommitOutcome) (retries : Nat) (amount : Word16) (counter known : Word32) :
    List Byte :=
  [BitVec.ofNat 8 p.val, o.code, BitVec.ofNat 8 retries, 0] ++ bytes16 amount ++ bytes32 counter ++ bytes32 known ++
    bytes16 x.pendingUse ++ bytes16 x.inFlight

/-- The commit running at a position. -/
def State.commitOf (s : State) (p : PosId) : CommitContext :=
  ((s.pos p).commit).getD { base := 0, confirming := false, retries := 0, tasks := [] }

/-- R111, R142: at the end of a commit that changed K the wear flag is evaluated; newly set, it turns CLEARED into
EXPIRED and the permit unit follows. -/
def State.commitWear (s : State) (p : PosId) : State :=
  let x := s.pos p
  if s.knownOf x = (s.commitOf p).base then s
  else if s.wearNow x = true ∧ x.wear = false then
    (s.setPos p { x with wear := true, verdict := if x.verdict = .cleared then .expired else x.verdict }).evaluatePermits
  else s.setPos p { x with wear := s.wearNow x }

/-- A commit ends (R101, R103): the wear flag, the copy of K, the posting, then the results of the attached tasks. The
sequencer is then IDLE; its choice is the caller's. -/
def State.endCommit (s : State) (p : PosId) (o : CommitOutcome) (amount : Word16) (counter : Word32) : State :=
  let c := s.commitOf p
  let s1 := s.commitWear p
  let s2 := (s1.modPos p (fun x => { x with known := s1.knownOf x, seq := .idle, commit := none })).postHalf p
  c.tasks.foldl
    (fun t k => t.complete k o.status
      (commitData p (s2.pos p) o c.retries amount counter (s2.pos p).known)) s2

/-- R106: a commit that finds an inconsistency hands a USAGE_MISMATCH result, with the limits of the class table's
record for the identity record's class code as the table stands. -/
def State.handMismatch (s : State) (p : PosId) : State :=
  let u := (s.pos p).boundUid
  let cls := u.bind (fun u => (s.record u).bind (fun r => s.classOf r.classCode))
  s.handResult p
    { kind := .findings, concerned := u, findings := fUsageMismatch, reason := .none, limits := limitsOf cls }

/-- The bound UID's K moves to the larger of K and `v` (R104, R107). -/
def State.raiseBound (s : State) (p : PosId) (v : Word32) : State :=
  match (s.pos p).boundUid with
  | none => s
  | some u => s.raiseKnown u v

/-- R104, R107: the counter `v` that the tag reports is judged against base and amount. `fromRead` tells a confirm read,
for which a counter equal to the base means that the addition was not made. -/
def State.judgeCounter (s : State) (p : PosId) (v : Word32) (fromRead : Bool) : State :=
  let amount := (s.pos p).inFlight
  let base := (s.commitOf p).base
  if sumsTo base amount v then
    ((s.raiseBound p v).modPos p Position.takeAmount).endCommit p .committed amount v
  else if fromRead = true ∧ v = base then
    (s.modPos p Position.returnAmount).endCommit p .returned amount v
  else
    (((s.raiseBound p v).modPos p Position.takeAmount).handMismatch p).endCommit p .mismatch amount v

/-- R108: the commit is UNCONFIRMED: its amount stays in flight. -/
def State.leaveUnconfirmed (s : State) (p : PosId) : State :=
  (s.modPos p (fun x => { x with unconfirmed := true })).endCommit p .unconfirmed (s.pos p).inFlight 0

/-- The retries of a commit's transactions add up (R103). -/
def State.addRetries (s : State) (p : PosId) (n : Nat) : State :=
  s.modPos p (fun x => { x with commit := x.commit.map (fun c => { c with retries := c.retries + n }) })

/-- R107, R17: the confirm read failed after its retries. -/
def State.confirmFailed (s : State) (p : PosId) (e : LineError) (retries : Nat) : State :=
  ((s.addRetries p retries).modPos p (fun x => { x with lastLineError := some e })).leaveUnconfirmed p

/-- R107: ADD_USAGE failed after its retries: a confirm read of block 5 is placed; on a STUCK line it fails at once. -/
def State.addUsageFailed (s : State) (p : PosId) (e : LineError) (retries : Nat) : State :=
  let s1 := (s.addRetries p retries).modPos p (fun x =>
    { x with lastLineError := some e, commit := x.commit.map (fun c => { c with confirming := true }) })
  if s1.onStuckLine p then s1.confirmFailed p .stuck 0 else s1.placeFor p (.readBlocks 5 1)

/-- R104, R105: the tag answered ADD_USAGE. -/
def State.addUsageReply (s : State) (p : PosId) (status : Byte) (data : List Byte) (retries : Nat) : State :=
  let s1 := s.addRetries p retries
  let amount := (s.pos p).inFlight
  if status = 0 then s1.judgeCounter p (word32At data 0) false
  else if status = 5 then (s1.modPos p Position.loseAmount).endCommit p .limit amount 0
  else ((s1.modPos p Position.loseAmount).handMismatch p).endCommit p .tagStatus amount 0

/-- R107: the tag answered the confirm read; OK with one block gives the counter V. -/
def State.confirmReply (s : State) (p : PosId) (status : Byte) (data : List Byte) (retries : Nat) : State :=
  let s1 := s.addRetries p retries
  if status = 0 ∧ byteAt data 0 = 1 then s1.judgeCounter p (word32At data 1) true else s1.leaveUnconfirmed p

/-- R101: a commit starts: pending moves to in-flight, K is noted as the base, the attached tasks go with it (R102),
ADD_USAGE is placed and the half is posted; a STUCK line fails the call at once. -/
def State.startCommit (s : State) (p : PosId) : State :=
  let s1 := (s.modPos p (fun x =>
    { x with seq := .commit, inFlight := x.pendingUse, pendingUse := 0, commitWaiting := [],
             commit := some { base := s.knownOf x, confirming := false, retries := 0, tasks := x.commitWaiting } })).postHalf p
  if s1.onStuckLine p then s1.addUsageFailed p .stuck 0 else s1.placeFor p (.addUsage (s1.pos p).inFlight)

/-- R102: with nothing pending every attached task ends OK with outcome NONE and amount 0. That the other items are
those of a settled commit in which nothing was sent is the model's reading (log 53). -/
def State.commitNothing (s : State) (p : PosId) : State :=
  let x := s.pos p
  x.commitWaiting.foldl
    (fun t k => t.complete k .ok (commitData p x .none 0 0 0 (s.knownOf x)))
    (s.modPos p (fun x => { x with commitWaiting := [] }))

/-- R8 step 4, R102: the commit step is due. -/
def Position.commitDue (x : Position) : Bool :=
  decide (x.boundUid ≠ none) && !x.unconfirmed &&
    (!x.commitWaiting.isEmpty || decide (x.applied.threshold.toNat ≤ x.pendingUse.toNat))

def State.commitStep (s : State) (p : PosId) : State :=
  if (s.pos p).commitDue then
    if (s.pos p).pendingUse = 0 then s.commitNothing p else s.startCommit p
  else s

/-! ### Pulses (R98, R144) -/

/-- R98: what one pulse does to the usage counts. -/
def Position.countPulse (x : Position) : Position :=
  if x.boundUid = none then { x with lost := x.lost + 1 }
  else if x.pendingUse = 0xFFFF#16 then { x with dropped := x.dropped + 1 }
  else { x with pendingUse := x.pendingUse + 1 }

/-- One pulse at a position: the usage counts, then grace; the half waits for its posting (R16). -/
def Position.pulse (x : Position) : Position := { x.countPulse.useGrace with pulseDirty := true }

/-- R98: a pulse on input `k` reaches the position. -/
def Position.takesPulse (x : Position) (k : InputId) : Bool := x.enabled && decide (x.applied.cycleInput = some k)

end Sys2Proof.Machine
end

