-- ==== Sys2Proof/Machine/Configure.lean ====
section
/-! DEFINITION. Examining and applying a configuration half (R1 to R7), the sequencer's choice of work (R8), and handing
the outcome of a line transaction or a measurement to its requester (R41, R82). -/
namespace Sys2Proof.Machine

/-! ### Conflicts (R2) -/

/-- R2: the half conflicts with the applied configuration of another enabled position. -/
def State.conflict (s : State) (p : PosId) (c : PosConfig) : Option RefusalReason :=
  let others := (allPositions.filter (fun q => decide (q ≠ p))).map s.pos
  if others.any (fun x => x.enabled && decide (x.applied.line = c.line) && decide (x.applied.address = c.address)) then
    some .addressInUse
  else if c.channel ≠ none ∧ others.any (fun x => x.enabled && decide (x.applied.channel = c.channel)) = true then
    some .channelInUse
  else none

/-! ### Disabling (R7) -/

/-- The disabled position: work gone, usage given up, marks cleared, DISABLED. -/
def Position.disable (x : Position) : Position :=
  { x.giveUpUse with
    enabled := false, seq := .off, editionWaiting := false, owed := false, timer := .stopped, cycle := none,
    inspectWaiting := [], commit := none, commitWaiting := [], verdict := .disabled, wear := false, uid := .none,
    classCode := 0, known := 0, reason := if x.seq = .cycle then .aborted else x.reason }

/-- R7, R72, R74, R103: the work is withdrawn, the binding ends, the position is DISABLED, which the permit unit is told
in one handover (R153; log 24); the half is posted once (log 4), the tasks attached to the position end, and the line
left looks at the QUIET conditions (logs 40 and 50). -/
def State.disablePosition (s : State) (p : PosId) (edition : Word16) : State :=
  let x := s.pos p
  let s1 := (s.withdrawLines (.position p)).withdrawMeas p
  let s2 := if x.boundUid = none then s1 else s1.dropBinding p
  let s3 := (s2.leaveContests p none).modPos p (fun x =>
    { x.disable with configStatus := .applied, refusal := .none, examined := edition, appliedEdition := edition })
  let s4 := s3.evaluatePermits.postHalf p
  let running := (x.cycle.map (fun c => c.tasks)).getD []
  let committing := (x.commit.map (fun c => c.tasks)).getD []
  let s5 := (s4.completeInspects p running true 0).completeInspects p x.inspectWaiting false 0
  (s5.completeAllFree (committing ++ x.commitWaiting) .refused).examineQuiet x.line

/-! ### Enabling and reconfiguring (R5, R6) -/

/-- R6: the position as enabling leaves it. The edition of its state half goes on. -/
def Position.enable (x : Position) (c : PosConfig) : Position :=
  { Position.reset with
    enabled := true, applied := c, seq := .idle, owed := true, verdict := .vacant, edition := x.edition,
    pulseDirty := x.pulseDirty }

/-- R5: the change is a departure. -/
def PosConfig.departs (old new : PosConfig) : Bool :=
  decide (old.line ≠ new.line ∨ old.address ≠ new.address ∨ old.channel ≠ new.channel ∨ old.accept ≠ new.accept)

/-- A new interval restarts the interval timer; a held timer stays held (R5, R9). -/
def Timer.reconfigure (t : Timer) (old new : Word16) : Timer :=
  if old = new then t
  else match t with
    | .running _ => .running new
    | .held => .held
    | .stopped => .stopped

/-- The position's part of a reconfiguration; a cycle input of NONE sets grace left to 0 (R143). -/
def Position.reconfigure (x : Position) (c : PosConfig) : Position :=
  { x with applied := c, timer := x.timer.reconfigure x.applied.interval c.interval,
           grace := if c.cycleInput = none then 0 else x.grace }

/-- R5: a half applied to an enabled position. It ends the held-back mark of the old and the new line (R44), also where
it changes no value: the model's choice (log 28). -/
def State.reconfigurePosition (s : State) (p : PosId) (c : PosConfig) : State :=
  let old := (s.pos p).applied
  let s1 :=
    if old.departs c then ((s.endBinding p).leaveContests p none).modPos p (fun x => { x with owed := true }) else s
  ((s1.modPos p (fun x => x.reconfigure c)).clearHeldBack old.line).clearHeldBack c.line

/-- R3: record an examination. -/
def Position.examinedAs (x : Position) (st : ConfigStatus) (r : RefusalReason) (edition : Word16) : Position :=
  { x with configStatus := st, refusal := r, examined := edition,
           appliedEdition := if st = .refused then x.appliedEdition else edition }

/-- R1 to R7: the half of `p` is examined as it stands and, if it is acceptable, applied; the half is posted. That an
examination which also enables, disables or aborts a cycle posts the half once is the model's choice (log 4), and so is
that the line left looks at the QUIET conditions last (logs 40 and 50). -/
def State.examineAndApply (s : State) (p : PosId) : State :=
  let edition := s.mem.word (positionAddr p)
  let x := s.pos p
  let refuse (r : RefusalReason) := (s.modPos p (fun x => x.examinedAs .refused r edition)).postHalf p
  match examineHalf s.mem p with
  | .disabled =>
    if x.enabled then s.disablePosition p edition
    else (s.modPos p (fun x => x.examinedAs .applied .none edition)).postHalf p
  | .refused r => refuse r
  | .accepted c clamped =>
    match s.conflict p c with
    | some r => refuse r
    | none =>
      let st := if clamped then ConfigStatus.appliedClamped else .applied
      let s1 :=
        if x.enabled then s.reconfigurePosition p c
        else (s.modPos p (fun x => x.enable c)).clearHeldBack c.line
      let s2 := ((s1.modPos p (fun x => x.examinedAs st .none edition)).evaluatePermits).postHalf p
      if x.enabled = true ∧ x.applied.line ≠ c.line then s2.examineQuiet x.applied.line else s2

/-! ### The choice of work (R8) -/

/-- R8: an IDLE sequencer chooses: a waiting half first, then an owed cycle, then a due commit. A cycle or commit that a
STUCK line ends at once brings the sequencer back to IDLE, and the choice goes on: after a cycle with the commit step,
and after a commit, which is then UNCONFIRMED, with nothing. -/
def State.choose (s : State) (p : PosId) : State :=
  if (s.pos p).seq ≠ .idle then s
  else
    let s1 :=
      if (s.pos p).editionWaiting then (s.modPos p (fun x => { x with editionWaiting := false })).examineAndApply p
      else s
    if (s1.pos p).seq ≠ .idle ∨ s1.device ≠ .running then s1
    else
      let s2 := if (s1.pos p).owed then s1.startCycle p else s1
      if (s2.pos p).seq ≠ .idle then s2 else s2.commitStep p

/-! ### Handing outcomes to requesters -/

/-- R41: a position's transaction has ended: the outcome goes to the stage or the commit that waits for it. -/
def State.positionLine (s : State) (p : PosId) (r : LineResult) : State :=
  match (s.pos p).seq with
  | .off => s
  | .idle => s
  | .cycle =>
    match (s.context p).stage, r with
    | .identify, .reply st data ratio n => s.identifyReply p st data ratio n
    | .identify, .failure e n => s.identifyFailed p e n
    | .challenge, .reply st data _ n => s.challengeReply p st data n
    | .challenge, .failure e _ => s.challengeFailed p e
    | .checks, _ => s
    | .signature, _ => s
    | .presence, _ => s
    | .screen, _ => s
    | .verdict, _ => s
  | .commit =>
    match (s.commitOf p).confirming, r with
    | false, .reply st data _ n => s.addUsageReply p st data n
    | false, .failure e n => s.addUsageFailed p e n
    | true, .reply st data _ n => s.confirmReply p st data n
    | true, .failure e n => s.confirmFailed p e n

/-- The status of a TAG_READ or TAG_WRITE whose transaction failed (R27). -/
def lineFailureStatus : LineError → TaskStatus
  | .stuck => .lineStuck
  | .reset => .lineReset
  | .readback | .noReply | .pace | .check | .length => .lineFailed

/-- R27, R28: a task's transaction has ended. A TAG_READ carries n and the blocks, a TAG_WRITE an unused byte 1. The tag
status of a failure is stated by no rule and is free (log 32). -/
def State.taskLine (s : State) (k : SlotId) (c : LineCommand) (r : LineResult) : State :=
  let reads := match c with
    | .readBlocks _ _ => true
    | .writeBlock _ _ => false
    | .challenge _ => false
    | .addUsage _ => false
  match r with
  | .reply st data ratio n =>
    let carries := reads && decide (st = 0 ∨ st = 6)
    s.complete k .ok
      ([st, if carries then byteAt data 0 else 0] ++ bytes16 ratio ++ [BitVec.ofNat 8 n, 0] ++
        (if carries then data.drop 1 else []))
  | .failure e n =>
    (s.complete k (lineFailureStatus e)
      ([Config.unstatedByte s.free 0, 0, 0, 0, BitVec.ofNat 8 n, e.code])).draw

/-- R41: hand the outcome of a request to its requester; a position whose work has ended chooses again (R8). -/
def State.handLine (s : State) (r : LineRequest) (o : LineResult) : State :=
  match r.requester with
  | .position p => (s.positionLine p o).choose p
  | .task k => s.taskLine k r.command o

/-- R41, R48, R29: a transaction ends: its outcome is handed, or discarded with its task ended CANCELLED, or
discarded. -/
def State.conclude (s : State) (t : Transaction) (o : LineResult) : State :=
  match t.disposition with
  | .live => s.handLine t.request o
  | .cancelled =>
    match t.request.requester with
    | .position _ => s
    | .task k => s.completeFree k .cancelled
  | .withdrawn => s

/-! ### The tail of a step -/

/-- R188: every sequencer IDLE or OFF, both lines IDLE, QUIET or STUCK with empty queues, the measurement unit idle. -/
def LineCtl.quiescent (l : LineCtl) : Bool :=
  decide (l.state = .idle ∨ l.state = .quiet ∨ l.state = .stuck) && l.queue.isEmpty

def State.quiescent (s : State) : Bool :=
  s.positions.toList.all (fun x => decide (x.seq = .idle ∨ x.seq = .off)) && s.lineA.quiescent && s.lineB.quiescent &&
    s.meas.inFlight.isNone && s.meas.queue.isEmpty

/-- R188: STOPPING becomes STOPPED at the first moment all is idle; the change is posted. -/
def State.stopIfIdle (s : State) : State :=
  if s.device = .stopping ∧ s.quiescent = true then { s with device := .stopped }.postBlock else s

/-- The end of every step that can move a permit input or end work: the permits follow (R156), then STOPPED (R188). -/
def State.finish (s : State) : State := s.evaluatePermits.stopIfIdle

end Sys2Proof.Machine
end

