-- ==== Sys2Proof/Machine/Device.lean ====
section
/-! DEFINITION. Supply, reset and start-up, and the device commands RESTART, STOP and RESUME (R188 to R190). -/
namespace Sys2Proof.Machine

/-! ### All positions at once -/

/-- Change every position. -/
@[irreducible] def State.mapPositions (s : State) (f : Position → Position) : State :=
  { s with positions := Vector.ofFn (fun p => f (s.pos p)) }

/-- The sequencer is IDLE and one of the steps of its choice is due (R8). -/
def Position.wantsChoice (x : Position) : Bool :=
  decide (x.seq = .idle) && (x.editionWaiting || x.owed || x.commitDue)

/-- R8: the sequencers of `ps` that have something to choose choose, in an order that the manual leaves open (R46;
log 9). -/
def State.chooseAmong (s : State) (ps : List PosId) : State :=
  (((inFreeOrder s.free (ps.filter (fun p => (s.pos p).wantsChoice))).foldl (fun t p => t.choose p) s)).draw

/-! ### Held in reset (R189) -/

/-- The key store while held in reset: only the slots are kept, and a write in progress leaves its slot INVALID
(R166, R171). -/
def KeyStore.halt (k : KeyStore) : KeyStore :=
  { KeyStore.reset with
    slots := match k.writing with
      | none => k.slots
      | some w => k.slots.set w.target.val .invalid }

/-- A line controller with its line released and nothing to send (R189). -/
def LineCtl.released : LineCtl := { LineCtl.reset with state := .idle, activity := .none }

/-- Every block in its reset state: permits low, lines released, excitation off, attention cleared and enabled
(R189). Of the part's state only the key slots survive. -/
def State.holdReset (s : State) (p : Power) : State :=
  { State.reset with
    power := p, pending := s.pending, clearing := false, lineA := LineCtl.released, lineB := LineCtl.released,
    keys := s.keys.halt, free := s.free }

/-- R189 steps 1 to 3: start-up begins. The first accepted levels of INHIBIT_N and CYC0..CYC7 are the starting levels
(R97, R157), and the blocker sets show them (R161). -/
def State.beginStartup (s : State) (inhibitN : Bool) (cyc : BitVec 8) : State :=
  let s1 := { State.reset with
    pending := s.pending, keys := s.keys, free := s.free, levels := cyc, inhibitN := inhibitN }
  { s1 with permits := { s1.permits with blockers := s1.blockerSets } }

/-- POWER_ON (R189): power is first applied. -/
def execPowerOn (s : State) : Host.Outcome State Fault Refusal :=
  .next (if s.power = .off then s.holdReset .held else s)

/-- RESET_N_ASSERT (R189). -/
def execResetNAssert (s : State) : Host.Outcome State Fault Refusal :=
  .next (if s.power = .off then s else s.holdReset .held)

/-- RESET_N_RELEASE (R189). -/
def execResetNRelease (inhibitN : Bool) (cyc : BitVec 8) (s : State) : Host.Outcome State Fault Refusal :=
  .next (if s.power = .held then s.beginStartup inhibitN cyc else s)

/-- POWER_LOSS (R171, R189): only the key slots are left. -/
def execPowerLoss (s : State) : Host.Outcome State Fault Refusal :=
  .next (if s.power = .off then s else s.holdReset .off)

/-! ### The start-up check (R166, R167, R189 step 4) -/

/-- A VALID slot that fails its check becomes INVALID; other slots are not tested. -/
def KeySlot.checked (damaged : Bool) : KeySlot → KeySlot
  | .empty => .empty
  | .valid k => if damaged then .invalid else .valid k
  | .invalid => .invalid

/-- The slot fails the check. -/
def KeySlot.fails (damaged : Bool) : KeySlot → Bool
  | .empty => false
  | .valid _ => damaged
  | .invalid => false

def KeySlot.isValid : KeySlot → Bool
  | .empty => false
  | .valid _ => true
  | .invalid => false

/-- R166: LOCKED if slot 0 is VALID, UNLOCKED otherwise; three attempts left. -/
def KeyStore.setLock (k : KeyStore) : KeyStore := { k with locked := (k.slots[0]).isValid, attempts := 3 }

/-- R167: the check of all slots; bit k of `damaged` says that the content of slot k fails its check. -/
def KeyStore.check (k : KeyStore) (damaged : BitVec 16) : KeyStore :=
  KeyStore.setLock { k with
    slots := Vector.ofFn (fun (i : KeySlotId) => (k.slots[i.val]).checked (damaged.getLsbD i.val))
    damaged := ((List.finRange 16).filter (fun i => (k.slots[i.val]).fails (damaged.getLsbD i.val))).length }

/-- R167, R189 step 4: the device becomes RUNNING and every group is evaluated (R158); the device block is posted and
STARTED is set, FAULT too when a slot failed. -/
def State.endCheck (s : State) (damaged : BitVec 16) : State :=
  let k := s.keys.check damaged
  let s1 := { s with keys := k, device := .running, clearing := false }
  let s2 := if k.damaged = 0 then s1 else s1.attend attFault
  s2.evaluateAndPost.attend attStarted

/-- STARTUP_CHECK_END. -/
def execStartupCheckEnd (damaged : BitVec 16) (s : State) : Host.Outcome State Fault Refusal :=
  .next (if s.power = .on ∧ s.device = .starting then s.endCheck damaged else s)

/-! ### STOP and RESUME (R11, R158, R188) -/

/-- An interval timer is held while the device is STOPPING or STOPPED (R9). -/
def Timer.hold : Timer → Timer
  | .stopped => .stopped
  | .held => .held
  | .running _ => .held

/-- R11: every enabled position's interval timer restarts from the full interval. -/
def Position.restartTimer (x : Position) : Position :=
  if x.enabled then { x with timer := .running x.applied.interval } else x

/-- STOP in RUNNING: STOPPING with every permit OFF, and STOPPED in the same step when all is idle (R188). -/
def State.stop (s : State) : State :=
  if s.device = .running then
    ({ s.mapPositions (fun x => { x with timer := x.timer.hold }) with device := .stopping }).evaluateAndPost.stopIfIdle
  else s

/-- RESUME in STOPPING or STOPPED: RUNNING, timers restarted, every group evaluated, and every IDLE sequencer makes its
choice (R11, R188). That the permits are evaluated and the device block is posted before the sequencers choose is the
model's choice (log 54). -/
def State.resume (s : State) : State :=
  if s.device = .stopping ∨ s.device = .stopped then
    ((({ s.mapPositions Position.restartTimer with device := .running }).evaluateAndPost).chooseAmong allPositions).finish
  else s

/-! ### RESTART (R190) -/

/-- R18: the position as RESTART leaves it; its state edition goes on. -/
def Position.restart (x : Position) : Position :=
  { Position.reset with edition := x.edition, pulseDirty := x.pulseDirty }

/-- R50: requests withdrawn, queue emptied, counts 0, held-back clear; state kept. A LINE_RESET's WAKE completes
(R49). -/
def LineCtl.restart (l : LineCtl) : LineCtl :=
  { l with queue := [], inFlight := l.inFlight.map (fun t => { t with disposition := .withdrawn }), heldBack := false,
           resetTasks := [], counts := LineCounts.reset }

/-- R77, R88: queue and waiting list emptied, counts 0; records and the measurement in flight kept, its outcome
discarded. -/
def MeasUnit.restart (u : MeasUnit) : MeasUnit :=
  { u with queue := [], waiting := [], inFlight := u.inFlight.map (fun f => { f with disposition := .withdrawn }),
           measurements := 0, saturated := 0 }

/-- R166, R168: queue emptied, the write in progress goes on without its task, the lock state is set again. -/
def KeyStore.restart (k : KeyStore) : KeyStore :=
  KeyStore.setLock { k with queue := [], writing := k.writing.map (fun w => { w with task := none }) }

/-- R190 steps 4 and 5: every block takes its RESTART values. A slot marked ANSWERED keeps its mark, also where its
word reads CANCEL: the model's choice (log 55). -/
def State.restartBlocks (s : State) : State :=
  { s.mapPositions Position.restart with
    lineA := s.lineA.restart, lineB := s.lineB.restart, meas := s.meas.restart, pulses := Vector.replicate 8 0,
    identity := [], evictions := 0, rules := Vector.replicate 8 Rule.reset, ruleLoads := 0, classes := [],
    keys := s.keys.restart, permits := { s.permits with holds := 0, groupEnable := 0 }, settings := Settings.reset,
    settingsStatus := .none, settingsExamined := 0, settingsApplied := 0, misuse := 0 }

/-- The watch index of a position's config edition. -/
def watchOfPos (p : PosId) : WatchId := ⟨p.val, by omega⟩

/-- The watch index of a slot's owner word. -/
def watchOfSlot (k : SlotId) : WatchId := ⟨25 + k.val, by omega⟩

/-- The watch index of the settings edition. -/
def watchSettings : WatchId := 24

/-- The task slots, rising. -/
def allSlots : List SlotId := List.finRange 8

/-- R190 step 7: the settings edition, the config editions of the halves that show enabled, the owner words that read
READY or CANCEL. -/
def State.refill (s : State) : List WatchId :=
  [watchSettings] ++
    (allPositions.filter (fun p => decide (s.mem.read (positionAddr p + 0x02) ≠ 0))).map watchOfPos ++
    (allSlots.filter (fun k => decide (s.owner k = ownerReady ∨ s.owner k = ownerCancel))).map watchOfSlot

/-- RESTART, whole (R190). -/
def State.restart (s : State) : State :=
  if s.device = .starting then s
  else
    let s1 := ({ s with device := .starting, watch := [] }).evaluateAndPost
    let held := allSlots.filter (fun k => decide ((s.slot k).mark = .held))
    let s2 := (s1.completeAllFree held .restarted).restartBlocks.settlePermits
    let s3 := (allPositions.foldl (fun t p => t.postHalf p) s2).postBlock
    (({ s3 with watch := s3.refill, device := .running }).evaluateAndPost).attend attStarted

/-! ### The CONTROL commands -/

/-- RESTART: the code 0x00A5 written to CONTROL. -/
def execRestart (s : State) : Host.Outcome State Fault Refusal := .next (if s.power = .on then s.restart else s)

/-- STOP: the code 0x0001 written to CONTROL. -/
def execStop (s : State) : Host.Outcome State Fault Refusal := .next (if s.power = .on then s.stop else s)

/-- RESUME: the code 0x0002 written to CONTROL. -/
def execResume (s : State) : Host.Outcome State Fault Refusal := .next (if s.power = .on then s.resume else s)

end Sys2Proof.Machine
end

