-- ==== Sys2Proof/Machine/HostPort.lean ====
section
/-! DEFINITION. The host's port: writes to the exchange memory with the write watch (R174, R175, R189), writes to the
register window (R180, R181), and what reads return. -/
namespace Sys2Proof.Machine

/-! ### Registers (R180, R181, section 12.5) -/

/-- R181: each reason written as 1 is cleared; unassigned bits have no effect. -/
def State.writeAttention (s : State) (v : Word16) : State :=
  { s with attention := s.attention &&& ~~~(v.setWidth 4) }

/-- R181: the enables are written whole. -/
def State.writeEnable (s : State) (v : Word16) : State := { s with attentionEnable := v.setWidth 4 }

def codeStop : Word16 := 0x0001
def codeResume : Word16 := 0x0002
def codeRestart : Word16 := 0x00A5

/-- A value written to CONTROL: a command, or ignored (R180). -/
def State.writeControl (s : State) (v : Word16) : State :=
  if v = codeStop then s.stop else if v = codeResume then s.resume else if v = codeRestart then s.restart else s

/-- A host write to register `r` of the window: IDENT is read-only. -/
def State.writeRegister (s : State) (r : BitVec 2) (v : Word16) : State :=
  if r = 0 then s else if r = 1 then s.writeControl v else if r = 2 then s.writeAttention v else s.writeEnable v

/-- ATTENTION_WRITE (R181). -/
def execAttentionWrite (v : Word16) (s : State) : Host.Outcome State Fault Refusal :=
  .next (if s.power = .on then s.writeAttention v else s)

/-- ATTENTION_ENABLE_WRITE (R181). -/
def execAttentionEnableWrite (v : Word16) (s : State) : Host.Outcome State Fault Refusal :=
  .next (if s.power = .on then s.writeEnable v else s)

/-- REGISTER_WRITE_OTHER (R180): a write to IDENT, or a CONTROL value that names no command. Any other register and
value goes where the register window takes it (log 22). -/
def execRegisterWriteOther (r : BitVec 2) (v : Word16) (s : State) : Host.Outcome State Fault Refusal :=
  .next (if s.power = .on then s.writeRegister r v else s)

/-- The value a host read of register `r` returns. -/
def State.readRegister (s : State) (r : BitVec 2) : Word16 :=
  if r = 0 then (0x24#8 ++ Config.revision)
  else if r = 1 then s.device.code.setWidth 16
  else if r = 2 then s.attention.setWidth 16
  else s.attentionEnable.setWidth 16

/-! ### The exchange memory (R174, R175) -/

/-- R175: the write watch notices a host write to a watched word. -/
def State.notice (s : State) (a : Nat) : State :=
  match watchAt a with
  | none => s
  | some i => { s with watch := enqueueNew s.watch i }

/-- A host write of the word at byte address `a`, stored and noticed. -/
def State.store (s : State) (a : Nat) (v : Word16) : State := ({ s with mem := s.mem.writeWord a v }).notice a

/-- R189 step 2: a write taken while the start-up clear may be running. Whether the clear still runs, overwrites the
write, and lets it be noticed is left open (log 8); once the clear has ended it stays ended. -/
def State.storeDuringClear (s : State) (a : Nat) (v : Word16) : State :=
  if Config.clearRunning s.free then
    let s1 := { s with mem := s.mem.writeWord a (if Config.clearOverwrites s.free then 0 else v) }
    (if Config.clearQueues s.free then s1.notice a else s1).draw
  else ({ s with clearing := false }.store a v).draw

/-- A host write of a word to the exchange memory. -/
def State.hostWrite (s : State) (a : Nat) (v : Word16) : State :=
  if s.clearing then s.storeDuringClear a v else s.store a v

/-- HOST_WORD_WRITE (R174): A13..A1 give the word address. -/
def execHostWordWrite (word : BitVec 13) (v : Word16) (s : State) : Host.Outcome State Fault Refusal :=
  .next (if s.power = .on then s.hostWrite (2 * word.toNat) v else s)

/-- WATCHED_WORD_WRITE (R175). -/
def execWatchedWordWrite (i : WatchId) (v : Word16) (s : State) : Host.Outcome State Fault Refusal :=
  .next (if s.power = .on then s.hostWrite (watchedAddr i) v else s)

/-- The value a host read of a word returns (R174). -/
def State.hostReadWord (s : State) (word : BitVec 13) : Word16 := s.mem.word (2 * word.toNat)

/-! ### Output pins -/

/-- The channel whose EXC output carries the excitation, if any (R77, R78). -/
def State.excitation (s : State) : Option ChannelId :=
  if s.meas.state = .idle then none else s.meas.inFlight.map (fun f => f.request.channel)

/-- The level of PERMITg: high when the permit is ON (R155). -/
def State.permitOutput (s : State) (g : GroupId) : Bool := s.permits.permitWord.getLsbD g.val

end Sys2Proof.Machine
end

