-- ==== Sys2Proof/Machine/TaskUnit.lean ====
section
/-! DEFINITION. The entries of the watch queue that carry no task: config editions (R4), the settings edition (R179), an
unknown kind, owner words written out of turn (R185), and CANCEL (R184). -/
namespace Sys2Proof.Machine

/-! ### Config editions (R4) -/

/-- R4, R8: the half is examined now, applied now to disable, or left waiting. Applying it to an IDLE sequencer leads to
a choice when it sets the owed flag; a new threshold alone waits for the next choice (R5; log 23). -/
def State.configEdition (s : State) (p : PosId) : State :=
  let x := s.pos p
  if x.seq = .off ∨ x.seq = .idle then
    let s1 := s.examineAndApply p
    if (s1.pos p).owed then s1.choose p else s1
  else if s.mem.read (positionAddr p + 0x02) = 0 ∧ x.enabled = true then s.examineAndApply p
  else s.modPos p (fun x => { x with editionWaiting := true })

/-- CONFIG_EDITION_TAKEN. -/
def execConfigEditionTaken (s : State) : Host.Outcome State Fault Refusal :=
  match s.takeEntry with
  | none => .next s
  | some (i, t) =>
    match posOfWatch i with
    | none => .next s
    | some p => .next (t.configEdition p).finish

/-! ### The settings edition (R179) -/

/-- R179: the settings record is applied at once: settings, status, editions and the permit unit's mask (R159); both
lines lose their held-back mark, the device block is posted, and both examine the QUIET conditions (R44). That the
posting comes before the examinations, and so shows a line that starts QUIET as IDLE, is the model's choice (log 50). -/
def State.applySettings (s : State) : State :=
  let r := readSettings s.mem
  let edition := s.mem.word settingsAddr
  let s1 := { s with
    settings := r.1, settingsStatus := if r.2 then .appliedClamped else .applied, settingsExamined := edition,
    settingsApplied := edition, permits := { s.permits with groupEnable := r.1.groupMask } }
  ((((s1.clearHeldBack .A).clearHeldBack .B).evaluateAndPost).examineQuiet .A).examineQuiet .B

/-- SETTINGS_EDITION_TAKEN. -/
def execSettingsEditionTaken (s : State) : Host.Outcome State Fault Refusal :=
  match s.takeEntry with
  | none => .next s
  | some (i, t) => .next (if i = watchSettings then t.applySettings.finish else s)

/-! ### Owner words without a task (R183, R185) -/

/-- The kind word names one of the twenty task kinds (Table 6 of Formats). -/
def kindNamed (kind : Word16) : Bool := decide (1 ≤ kind.toNat ∧ kind.toNat ≤ 0x14)

/-- TASK_BAD_KIND (R183): a taken slot whose kind names no task ends at once. -/
def execTaskBadKind (s : State) : Host.Outcome State Fault Refusal :=
  match s.takeReady with
  | none => .next s
  | some (k, t) => .next (if kindNamed (t.slot k).kind then s else t.complete k .badKind [])

/-- R185, R177: the misuse count rises by 1, and a changed count posts the device block. -/
def State.countMisuse (s : State) : State :=
  if satInc s.misuse = s.misuse then s else ({ s with misuse := satInc s.misuse }).postBlock

/-- R185 by the slot's mark. The value FREE or DONE over a held slot is left; any other is overwritten with TAKEN. -/
def State.misuseEntry (s : State) (k : SlotId) : State :=
  if (s.slot k).mark = .held then
    if s.owner k = ownerFree ∨ s.owner k = ownerDone then s.countMisuse
    else ({ s with mem := s.mem.writeWord (slotAddr k) ownerTaken }).countMisuse
  else s.setSlot k { s.slot k with mark := .host }

/-- R185: an entry with any value but CANCEL, and READY only for a HELD slot. -/
def State.isMisuse (s : State) (k : SlotId) : Bool :=
  decide (s.owner k ≠ ownerCancel ∧ (s.owner k = ownerReady → (s.slot k).mark = .held))

/-- OWNER_WORD_MISUSE (R185). -/
def execOwnerWordMisuse (s : State) : Host.Outcome State Fault Refusal :=
  match s.takeOwner with
  | none => .next s
  | some (k, t) => .next (if t.isMisuse k then t.misuseEntry k else s)

/-! ### CANCEL (R184) -/

/-- R29: a task's request waits in this line's queue. -/
def LineCtl.queues (l : LineCtl) (k : SlotId) : Bool :=
  l.queue.any (fun r => decide (r.requester = .task k))

/-- R29: a TAG_READ or TAG_WRITE still queued. -/
def State.queuedOnLine (s : State) (k : SlotId) : Bool := s.lineA.queues k || s.lineB.queues k

/-- R29, R48: a TAG_READ in flight on this line is withdrawn; its task ends CANCELLED when the transaction completes. A
transaction of an earlier task of the slot, withdrawn by RESTART, stays withdrawn. -/
def LineCtl.cancelRead (l : LineCtl) (k : SlotId) : LineCtl :=
  { l with inFlight := l.inFlight.map
             (fun t => if t.request.requester = .task k ∧ t.disposition = .live then { t with disposition := .cancelled }
                       else t) }

/-- R88: a CALIBRATE in flight is withdrawn; its task ends CANCELLED when its sampling ends. -/
def MeasUnit.cancelFlight (u : MeasUnit) (k : SlotId) : MeasUnit :=
  { u with inFlight := u.inFlight.map
             (fun f => if f.request.slot = some k ∧ f.disposition = .live then { f with disposition := .cancelled } else f) }

/-- R88: a CALIBRATE by where it stands. -/
def State.cancelCalibrate (s : State) (k : SlotId) : State :=
  if s.meas.waiting.any (fun r => decide (r.slot = some k)) then
    (s.modMeas (fun u => { u with waiting := u.waiting.filter (fun r => decide (r.slot ≠ some k)) })).completeFree k
      .cancelled
  else if s.meas.queue.any (fun r => decide (r.slot = some k)) then
    ((s.modMeas (fun u => { u with queue := u.queue.filter (fun r => decide (r.slot ≠ some k)) })).completeFree k
      .cancelled).advanceCalibration
  else s.modMeas (fun u => u.cancelFlight k)

/-- R75: an INSPECT whose cycle has not started. -/
def State.cancelInspect (s : State) (k : SlotId) : State :=
  if s.positions.toList.any (fun x => decide (k ∈ x.inspectWaiting)) then
    (s.mapPositions (fun x => { x with inspectWaiting := without x.inspectWaiting k })).completeFree k .cancelled
  else s

/-- R103: a USAGE_COMMIT that has no commit yet. -/
def State.cancelCommit (s : State) (k : SlotId) : State :=
  if s.positions.toList.any (fun x => decide (k ∈ x.commitWaiting)) then
    (s.mapPositions (fun x => { x with commitWaiting := without x.commitWaiting k })).completeFree k .cancelled
  else s

/-- R168: a key task still in the queue; the number waiting is shown in the device block (R166). -/
def State.cancelKeyTask (s : State) (k : SlotId) : State :=
  if s.keys.queue.any (fun t => decide (t.slot = k)) then
    (({ s with keys := { s.keys with queue := s.keys.queue.filter (fun t => decide (t.slot ≠ k)) } }).postBlock).completeFree
      k .cancelled
  else s

/-- R29: a TAG_READ or TAG_WRITE still queued leaves the queue. -/
def State.cancelQueued (s : State) (k : SlotId) : State := (s.withdrawLines (.task k)).completeFree k .cancelled

/-- R29: a TAG_READ. -/
def State.cancelRead (s : State) (k : SlotId) : State :=
  if s.queuedOnLine k then s.cancelQueued k
  else { s with lineA := s.lineA.cancelRead k, lineB := s.lineB.cancelRead k }

/-- R29: a TAG_WRITE in flight runs on. -/
def State.cancelWrite (s : State) (k : SlotId) : State := if s.queuedOnLine k then s.cancelQueued k else s

/-- R184, HELD: the cancel is handed to the block that holds the task; of the other kinds a LINE_RESET is the only one
that can be in device hands, and its cancel is too late (R49). -/
def State.handCancel (s : State) (k : SlotId) : State :=
  let kind := (s.slot k).kind
  let s1 := s.setSlot k { s.slot k with cancelHanded := true }
  if kind = 0x01 then s1.cancelInspect k
  else if kind = 0x02 then s1.cancelRead k
  else if kind = 0x03 then s1.cancelWrite k
  else if kind = 0x06 then s1.cancelCalibrate k
  else if kind = 0x07 then s1.cancelCommit k
  else if 0x11 ≤ kind.toNat ∧ kind.toNat ≤ 0x14 then s1.cancelKeyTask k
  else s1

/-- R184 by the slot's mark. A slot not in device hands has no kind, so its CANCELLED result carries no data (log
20). A slot that was ANSWERED before a RESTART is still taken as ANSWERED: the model's choice (log 55). -/
def State.cancelEntry (s : State) (k : SlotId) : State :=
  match (s.slot k).mark with
  | .held => if (s.slot k).cancelHanded then s else s.handCancel k
  | .answered => { s with mem := s.mem.writeWord (slotAddr k) ownerDone }
  | .host => s.complete k .cancelled []

/-- CANCEL (R184). -/
def execCancel (s : State) : Host.Outcome State Fault Refusal :=
  match s.takeOwner with
  | none => .next s
  | some (k, t) => .next (if t.owner k = ownerCancel then (t.cancelEntry k).finish else s)

end Sys2Proof.Machine
end

