-- ==== Sys2Proof/Machine/TagTasks.lean ====
section
/-! DEFINITION. The tasks that ask work of positions, lines and the measurement unit: INSPECT (R73), TAG_READ (R27),
TAG_WRITE (R28), LINE_RESET (R49), CAL_LOAD (R84), CALIBRATE (R85) and USAGE_COMMIT (R102). -/
namespace Sys2Proof.Machine

/-! ### INSPECT (R73) -/

/-- R73: attach the task, set the owed flag, post the half if the flag changed (R16), and let an IDLE sequencer choose. -/
def State.attachInspect (s : State) (k : SlotId) (p : PosId) : State :=
  let x := s.pos p
  let s1 := s.setPos p { x with owed := true, inspectWaiting := x.inspectWaiting ++ [k] }
  (if x.owed then s1 else s1.postHalf p).choose p

def State.inspectTask (k : SlotId) (s : State) : State :=
  match finOfCode 24 (byteAt (s.payload k) 0) with
  | none => s.completeFree k .badArgument
  | some p => if (s.pos p).enabled then s.attachInspect k p else s.completeFree k .refused

/-- INSPECT. -/
def execInspect (s : State) : Host.Outcome State Fault Refusal :=
  .next (s.runTask 0x01 (fun k t => (t.inspectTask k).finish))

/-! ### TAG_READ and TAG_WRITE (R27, R28) -/

/-- A task's request is placed on its line; a STUCK line fails it at once (R43). -/
def State.placeTask (s : State) (k : SlotId) (l : LineId) (address : Byte) (c : LineCommand) : State :=
  if (s.line l).state = .stuck then s.taskLine k c (.failure .stuck 0)
  else s.placeLine l { requester := .task k, address := address, command := c }

/-- A tag address that a task can call: 1..31. -/
def addressOk (a : Byte) : Bool := decide (1 ≤ a.toNat ∧ a.toNat ≤ 31)

/-- R27. -/
def State.tagReadTask (k : SlotId) (s : State) : State :=
  let b := s.payload k
  match lineOfCode (byteAt b 0) with
  | none => s.completeFree k .badArgument
  | some l =>
    if addressOk (byteAt b 1) = true ∧ 1 ≤ (byteAt b 3).toNat ∧ (byteAt b 3).toNat ≤ 8 then
      s.placeTask k l (byteAt b 1) (.readBlocks (byteAt b 2) (byteAt b 3))
    else s.completeFree k .badArgument

/-- TAG_READ. -/
def execTagRead (s : State) : Host.Outcome State Fault Refusal :=
  .next (s.runTask 0x02 (fun k t => (t.tagReadTask k).finish))

/-- R28: blocks 0..6 are REFUSED, a block above 63 is BAD_ARGUMENT. That a bad line or address is found before a block of
0..6 is the model's choice (log 48). -/
def State.tagWriteTask (k : SlotId) (s : State) : State :=
  let b := s.payload k
  match lineOfCode (byteAt b 0) with
  | none => s.completeFree k .badArgument
  | some l =>
    if addressOk (byteAt b 1) = false then s.completeFree k .badArgument
    else if (byteAt b 2).toNat ≤ 6 then s.completeFree k .refused
    else if 63 < (byteAt b 2).toNat then s.completeFree k .badArgument
    else s.placeTask k l (byteAt b 1) (.writeBlock (byteAt b 2) (word32At b 4))

/-- TAG_WRITE. -/
def execTagWrite (s : State) : Host.Outcome State Fault Refusal :=
  .next (s.runTask 0x03 (fun k t => (t.tagWriteTask k).finish))

/-! ### LINE_RESET (R49) -/

/-- A WAKE is being sent, or its rest is running. -/
def LineCtl.waking (l : LineCtl) : Bool :=
  match l.activity with
  | .none => false
  | .call => false
  | .quiet _ => false
  | .wake _ _ _ => true

/-- The line as LINE_RESET leaves it before the failures are handed: nothing in flight, the queue taken out, WAKE being
sent, the task waiting for its rest. A transaction ended in flight adds to the transactions count (R51). -/
def LineCtl.reset49 (l : LineCtl) (w : ResetWait) : LineCtl :=
  let l1 := { l with queue := [], inFlight := none, resetTasks := l.resetTasks ++ [w],
                     counts := if l.inFlight.isSome then l.counts.transaction else l.counts }
  if l.waking then l1 else l1.wake false

/-- R42, R49: the transaction in flight, then every request of the queue as it stood, fails to its requester. -/
def State.failAll (s : State) (flight : Option Transaction) (queue : List LineRequest) (e : LineError) : State :=
  let s1 := match flight with
    | none => s
    | some t => s.conclude t (.failure e t.retries)
  queue.foldl (fun s r => s.handLine r (.failure e 0)) s1

/-- R49 on a line that is not STUCK. Leaving QUIET posts the device block (R51). The result counts any transaction in
flight as failed, one that is only discarded too: the model's choice (log 39). The line sends its WAKE, with the counts
raised, before the failures are handed (log 43). -/
def State.resetLine (s : State) (k : SlotId) (l : LineId) : State :=
  let x := s.line l
  let w : ResetWait := { slot := k, found := x.state, failed := x.inFlight.isSome, queued := x.queue.length }
  let s1 := s.setLine l (x.reset49 w)
  let s2 := (if x.inFlight.isSome then s1.touchBlock else s1).failAll x.inFlight x.queue .reset
  if x.state = .quiet then s2.postBlock else s2

/-- R49: on a STUCK line there is nothing to fail and the task ends at once. That a LINE_RESET which ends
BAD_ARGUMENT posts nothing is the model's choice (log 51). -/
def State.lineResetTask (k : SlotId) (s : State) : State :=
  match lineOfCode (byteAt (s.payload k) 0) with
  | none => s.completeFree k .badArgument
  | some l =>
    if (s.line l).state = .stuck then
      s.postBlock.completeReset { slot := k, found := .stuck, failed := false, queued := 0 }
    else s.resetLine k l

/-- LINE_RESET. -/
def execLineReset (s : State) : Host.Outcome State Fault Refusal :=
  .next (s.runTask 0x04 (fun k t => (t.lineResetTask k).finish))

/-! ### Calibration tasks (R84, R85) -/

/-- R84: the two values clamped into their ranges. -/
def clampCal (o : Word16) (g : Word32) : CalRecord :=
  { offset := BitVec.ofInt 16 (clampInt (-2048) 2047 o.toInt), gain := BitVec.ofNat 32 (clampNat 1 16777215 g.toNat) }

def State.setCal (s : State) (c : ChannelId) (r : CalRecord) : State :=
  s.modMeas (fun u => { u with cal := u.cal.set c.val r })

def State.calOf (s : State) (c : ChannelId) : CalRecord := s.meas.cal[c.val]

/-- R84. -/
def State.calLoadTask (k : SlotId) (s : State) : State :=
  let b := s.payload k
  match finOfCode 24 (byteAt b 0) with
  | none => s.completeFree k .badArgument
  | some c =>
    let r := clampCal (word16At b 2) (word32At b 4)
    let exact := r.offset = word16At b 2 ∧ r.gain = word32At b 4
    (s.setCal c r).complete k (if exact then .ok else .clamped)
      ([byteAt b 0, 0] ++ bytes16 r.offset ++ bytes32 r.gain)

/-- CAL_LOAD. -/
def execCalLoad (s : State) : Host.Outcome State Fault Refusal :=
  .next (s.runTask 0x05 (fun k t => t.calLoadTask k))

/-- R85: IN_USE is tested, then the request goes to the queue, or to the waiting list behind another CALIBRATE. That a
bad kind or reference is found before IN_USE is the model's choice (log 45). So is that the waiting list takes an eighth
task, where RESTART has left a withdrawn CALIBRATE in flight (log 46). -/
def State.calibrateTask (k : SlotId) (s : State) : State :=
  let b := s.payload k
  match finOfCode 24 (byteAt b 0), calKindOfCode (byteAt b 1) with
  | some c, some kind =>
    let ref := word32At b 4
    if kind = .gain ∧ (ref.toNat = 0 ∨ 4000000 < ref.toNat) then s.completeFree k .badArgument
    else if s.channelInUse c then s.completeFree k .inUse
    else
      let r : MeasRequest := { channel := c, kind := .calibrate k kind ref }
      if s.meas.calibrating then s.modMeas (fun u => { u with waiting := u.waiting ++ [r] }) else s.placeMeas r
  | some _, none => s.completeFree k .badArgument
  | none, _ => s.completeFree k .badArgument

/-- CALIBRATE. -/
def execCalibrate (s : State) : Host.Outcome State Fault Refusal :=
  .next (s.runTask 0x06 (fun k t => t.calibrateTask k))

/-! ### USAGE_COMMIT (R102) -/

/-- R102: a valid task is attached, and an IDLE sequencer chooses. -/
def State.usageCommitTask (k : SlotId) (s : State) : State :=
  match finOfCode 24 (byteAt (s.payload k) 0) with
  | none => s.completeFree k .badArgument
  | some p =>
    let x := s.pos p
    if x.enabled = false ∨ x.boundUid = none ∨ x.unconfirmed = true then s.completeFree k .refused
    else (s.setPos p { x with commitWaiting := x.commitWaiting ++ [k] }).choose p

/-- USAGE_COMMIT. -/
def execUsageCommit (s : State) : Host.Outcome State Fault Refusal :=
  .next (s.runTask 0x07 (fun k t => (t.usageCommitTask k).finish))

end Sys2Proof.Machine
end

