-- ==== Sys2Proof/Machine/ListTasks.lean ====
section
/-! DEFINITION. The tasks of the retired list (R125 to R127), RELEASE (R146), RULES_LOAD (R151), PERMIT_HOLD and
PERMIT_FREE (R160). -/
namespace Sys2Proof.Machine

/-! ### Bulk ranges (R187) -/

/-- R187: the range lies wholly inside the bulk area and starts at an even offset. -/
def bulkOk (offset length : Nat) : Bool :=
  decide (offset % 2 = 0 ∧ bulkStart ≤ offset ∧ offset + length ≤ bulkEnd)

/-! ### RETIRED_IMPORT (R125) -/

structure ImportCounts where
  added : Nat
  duplicates : Nat
  malformed : Nat
  dropped : Nat
  deriving DecidableEq, Repr

/-- R125: one UID of the list handed by the host. -/
def importUid (acc : State × ImportCounts) (u : Word64) : State × ImportCounts :=
  let s := acc.1
  let c := acc.2
  if uidWellFormed u = false then (s, { c with malformed := c.malformed + 1 })
  else if u ∈ s.retired then (s, { c with duplicates := c.duplicates + 1 })
  else (s.retire u,
    { c with added := c.added + 1, dropped := if 128 ≤ s.retired.length then c.dropped + 1 else c.dropped })

/-- The UIDs of a bulk list. -/
def Memory.uids (m : Memory) (a n : Nat) : List Word64 :=
  (List.range n).map (fun i => BitVec.ofNat 64 (ofLeBytes (m.bytes (a + 8 * i) 8)))

/-- R125. An entry added changes the list, whatever it comes to in the end, and the device block is posted (R121). -/
def State.retiredImportTask (k : SlotId) (s : State) : State :=
  let b := s.payload k
  let offset := (word16At b 0).toNat
  let count := (word16At b 2).toNat
  if count = 0 ∨ 128 < count then s.completeFree k .badArgument
  else if bulkOk offset (8 * count) = false then s.completeFree k .badRange
  else
    let r := (s.mem.uids offset count).foldl importUid (s, ⟨0, 0, 0, 0⟩)
    (if r.2.added = 0 then r.1 else r.1.postBlock).complete k .ok
      ([count, r.2.added, r.2.duplicates, r.2.malformed, r.2.dropped, r.1.retired.length].flatMap (leBytes 2))

/-- RETIRED_IMPORT. -/
def execRetiredImport (s : State) : Host.Outcome State Fault Refusal :=
  .next (s.runTask 0x08 (fun k t => t.retiredImportTask k))

/-! ### RETIRED_EXPORT (R126) -/

/-- The list as RETIRED_EXPORT writes it (section 12.6). -/
def State.exportBytes (s : State) : List Byte :=
  leBytes 2 s.retired.length ++ bytes16 s.retiredDropped ++ s.retired.flatMap bytes64

/-- R126. -/
def State.retiredExportTask (k : SlotId) (s : State) : State :=
  let offset := (word16At (s.payload k) 0).toNat
  if bulkOk offset (4 + 8 * s.retired.length) = false then s.completeFree k .badRange
  else
    ({ s with mem := s.mem.write offset s.exportBytes }).complete k .ok
      (leBytes 2 s.retired.length ++ bytes16 s.retiredDropped ++ [BitVec.ofNat 8 s.protectedCount])

/-- RETIRED_EXPORT. -/
def execRetiredExport (s : State) : Host.Outcome State Fault Refusal :=
  .next (s.runTask 0x09 (fun k t => t.retiredExportTask k))

/-! ### RETIRED_REMOVE (R127) and RELEASE (R146) -/

/-- R127: the UID leaves the list; a position that held it BARRED is released as by RELEASE, and its sequencer
chooses. -/
def State.retiredRemoveTask (k : SlotId) (s : State) : State :=
  let u := word64At (s.payload k) 0
  if uidWellFormed u = false then s.completeFree k .badArgument
  else if u ∉ s.retired then s.completeFree k .noSuch
  else
    match s.barredWith u with
    | none => s.removeUid k u none
    | some p => (s.removeUid k u (some p)).choose p

/-- RETIRED_REMOVE. -/
def execRetiredRemove (s : State) : Host.Outcome State Fault Refusal :=
  .next (s.runTask 0x0A (fun k t => (t.retiredRemoveTask k).finish))

/-- R146: a BARRED position always holds a bound UID (R122). -/
def State.releaseTask (k : SlotId) (s : State) : State :=
  match finOfCode 24 (byteAt (s.payload k) 0) with
  | none => s.completeFree k .badArgument
  | some p =>
    match (s.pos p).verdict, (s.pos p).boundUid with
    | .barred, some u =>
      (s.releaseHeld k p u).choose p
    | _, _ => s.completeFree k .refused

/-- RELEASE. -/
def execRelease (s : State) : Host.Outcome State Fault Refusal :=
  .next (s.runTask 0x0B (fun k t => (t.releaseTask k).finish))

/-! ### RULES_LOAD (R151) -/

/-- An entry examined: a rule, or the code of the first field that failed. -/
inductive RuleExam where
  | rule (r : Rule)
  | bad (field : Byte)
  deriving DecidableEq, Repr

/-- R151: entry `i` of the payload; a disabled entry is not examined further. -/
def examineRule (b : List Byte) (i : Nat) : RuleExam :=
  let base := 14 * i
  if byteAt b base = 0 then .rule Rule.reset
  else
    match finOfCode 4 (byteAt b (base + 1)) with
    | none => .bad 1
    | some g =>
    match quantityOfCode (byteAt b (base + 2)) with
    | none => .bad 2
    | some q =>
    match senseOfCode (byteAt b (base + 3)) with
    | none => .bad 3
    | some sense =>
      let lo := word32At b (base + 6)
      let hi := word32At b (base + 10)
      if hi.toInt < lo.toInt then .bad 4
      else .rule { enabled := true, group := g, quantity := q, lo := lo, hi := hi, sense := sense,
                   classCode := word16At b (base + 4) }

/-- The field that failed in an entry. -/
def RuleExam.failed : RuleExam → Option Byte
  | .rule _ => none
  | .bad f => some f

def RuleExam.taken : RuleExam → Rule
  | .rule r => r
  | .bad _ => Rule.reset

/-- The first entry that failed, and its field. -/
def firstBadRule (b : List Byte) : Option (Nat × Byte) :=
  (List.range 8).findSome? (fun i => (examineRule b i).failed.map (fun f => (i, f)))

/-- R151: with a failed entry the result names it, and the other data, which no rule states, are free; otherwise the
rule set is replaced whole. -/
def State.rulesLoadTask (k : SlotId) (s : State) : State :=
  let b := s.payload k
  match firstBadRule b with
  | some (i, f) =>
    (s.complete k .badArgument (freeData s.free 0 rulesFields ++ [BitVec.ofNat 8 i, f])).draw
  | none =>
    let s1 := { s with rules := Vector.ofFn (fun i => (examineRule b i.val).taken), ruleLoads := s.ruleLoads + 1 }
    s1.postBlock.complete k .ok
      (bytes8 s1.enabledRules ++ [0] ++ bytes16 s1.ruleLoads ++ [0xFF, 0xFF])

/-- RULES_LOAD. -/
def execRulesLoad (s : State) : Host.Outcome State Fault Refusal :=
  .next (s.runTask 0x0C (fun k t => t.rulesLoadTask k))

/-! ### PERMIT_HOLD and PERMIT_FREE (R160) -/

/-- R160: new latches; the groups are evaluated and the device block is posted before the result. -/
def State.setHolds (s : State) (k : SlotId) (holds : Byte) : State :=
  let s1 := ({ s with permits := { s.permits with holds := holds } }).evaluateAndPost
  s1.complete k .ok [s1.permits.holds, s1.permits.permitWord]

/-- R160: the mask of the payload, if it is not above 255. -/
def State.holdMask (s : State) (k : SlotId) : Option Byte :=
  let m := word16At (s.payload k) 0
  if 255 < m.toNat then none else some (m.setWidth 8)

def State.permitHoldTask (k : SlotId) (s : State) : State :=
  match s.holdMask k with
  | none => s.completeFree k .badArgument
  | some m => s.setHolds k (s.permits.holds ||| m)

/-- PERMIT_HOLD. -/
def execPermitHold (s : State) : Host.Outcome State Fault Refusal :=
  .next (s.runTask 0x0D (fun k t => t.permitHoldTask k))

def State.permitFreeTask (k : SlotId) (s : State) : State :=
  match s.holdMask k with
  | none => s.completeFree k .badArgument
  | some m => s.setHolds k (s.permits.holds &&& ~~~m)

/-- PERMIT_FREE. -/
def execPermitFree (s : State) : Host.Outcome State Fault Refusal :=
  .next (s.runTask 0x0E (fun k t => t.permitFreeTask k))

end Sys2Proof.Machine
end

