-- ==== Sys2Proof/Machine/ClassKey.lean ====
section
/-! DEFINITION. The class table's tasks CLASS_LOAD (R162, R163) and CLASS_DROP (R164), the key tasks KEY_LOAD (R171),
KEY_ERASE (R172), KEYS_UNLOCK (R169) and KEYS_LOCK (R170) as they are taken, and the key store serving them (R168). -/
namespace Sys2Proof.Machine

/-! ### Class records (R162) -/

/-- The structural fields examined: the record as given, or the code of the first field that failed. -/
inductive ClassExam where
  | bad (field : Byte)
  | given (slot : KeySlotId) (mode : SignatureMode)
  deriving DecidableEq, Repr

/-- R162: code, key slot 1..15, mode and clock band, in the order of Table 1. -/
def examineClass (b : List Byte) : ClassExam :=
  if word16At b 0 = 0 then .bad 1
  else
    match finOfCode 16 (byteAt b 2) with
    | none => .bad 2
    | some slot =>
    if slot = 0 then .bad 2
    else
    match modeOfCode (byteAt b 3) with
    | none => .bad 3
    | some mode => if (word16At b 14).toNat < (word16At b 12).toNat then .bad 4 else .given slot mode

def clampWord (n lo hi : Nat) (v : BitVec n) : BitVec n := BitVec.ofNat n (clampNat lo hi v.toNat)

/-- R162: the record with each numeric field clamped into its range on its own. -/
def clampClass (b : List Byte) (slot : KeySlotId) (mode : SignatureMode) : ClassRecord :=
  { code := word16At b 0
    keySlot := slot
    mode := mode
    tau := clampWord 32 1000 200000 (word32At b 4)
    alpha := clampWord 16 0 6000 (word16At b 8)
    beta := BitVec.ofInt 16 (clampInt (-2000) 2000 (word16At b 10).toInt)
    bandLo := clampWord 16 7500 12500 (word16At b 12)
    bandHi := clampWord 16 7500 12500 (word16At b 14)
    trip := clampWord 8 1 8 (byteAt b 16)
    recover := clampWord 8 0 16 (byteAt b 17)
    forgive := clampWord 8 1 255 (byteAt b 18)
    latch := clampWord 8 1 15 (byteAt b 19) }

/-- A record in the layout of the payload (section 12.6). -/
def ClassRecord.bytes (c : ClassRecord) : List Byte :=
  bytes16 c.code ++ [BitVec.ofNat 8 c.keySlot.val, c.mode.code] ++ bytes32 c.tau ++ bytes16 c.alpha ++
    bytes16 c.beta ++ bytes16 c.bandLo ++ bytes16 c.bandHi ++ [c.trip, c.recover, c.forgive, c.latch]

/-- R163: replace the record of the same code, or add a new one. -/
def placeClass (t : List ClassRecord) (c : ClassRecord) : List ClassRecord :=
  if t.any (fun d => decide (d.code = c.code)) then t.map (fun d => if d.code = c.code then c else d) else t ++ [c]

/-- R162: a numeric field of the record was clamped. -/
def classClamped (b : List Byte) (c : ClassRecord) : Bool :=
  decide (c.tau ≠ word32At b 4 ∨ c.alpha ≠ word16At b 8 ∨ c.beta ≠ word16At b 10 ∨ c.bandLo ≠ word16At b 12 ∨
    c.bandHi ≠ word16At b 14 ∨ c.trip ≠ byteAt b 16 ∨ c.recover ≠ byteAt b 17 ∨ c.forgive ≠ byteAt b 18 ∨
    c.latch ≠ byteAt b 19)

/-- R162, R163. Of a record that fails its examination the result names the field, and its other data are free; of
TABLE_FULL the record is free (none is stored), nothing was replaced, and the number of records is the table's. -/
def State.classLoadTask (k : SlotId) (s : State) : State :=
  let b := s.payload k
  match examineClass b with
  | .bad f => (s.complete k .badArgument (freeData s.free 0 (recordFields ++ [.flag, .bytes 1]) ++ [f])).draw
  | .given slot mode =>
    let c := clampClass b slot mode
    let known := (s.classOf c.code).isSome
    if known = false ∧ 16 ≤ s.classes.length then
      (s.complete k .tableFull (freeData s.free 0 recordFields ++ [0] ++ bytes8 s.classes.length ++ [0xFF])).draw
    else
      let s1 := { s with classes := placeClass s.classes c }
      s1.postBlock.complete k (if classClamped b c then .clamped else .ok)
        (c.bytes ++ [flagByte known] ++ bytes8 s1.classes.length ++ [0xFF])

/-- CLASS_LOAD. -/
def execClassLoad (s : State) : Host.Outcome State Fault Refusal :=
  .next (s.runTask 0x0F (fun k t => t.classLoadTask k))

/-- R164. -/
def State.classDropTask (k : SlotId) (s : State) : State :=
  let code := word16At (s.payload k) 0
  if code = 0 then s.completeFree k .badArgument
  else if s.classOf code = none then s.completeFree k .noSuch
  else
    let s1 := { s with classes := s.classes.filter (fun c => decide (c.code ≠ code)) }
    s1.postBlock.complete k .ok (bytes16 code ++ bytes8 s1.classes.length)

/-- CLASS_DROP. -/
def execClassDrop (s : State) : Host.Outcome State Fault Refusal :=
  .next (s.runTask 0x10 (fun k t => t.classDropTask k))

/-! ### Key tasks as they are taken (R168) -/

/-- A valid key task joins the tail of the queue; the number waiting is posted (R166). -/
def State.queueKey (s : State) (k : SlotId) (op : KeyOp) : State :=
  ({ s with keys := { s.keys with queue := s.keys.queue ++ [KeyTask.mk k op] } }).postBlock

/-- KEY_LOAD (R171): a slot outside 0..15 ends the task. -/
def State.keyLoadTask (k : SlotId) (s : State) : State :=
  match finOfCode 16 (byteAt (s.payload k) 0) with
  | none => s.completeFree k .badArgument
  | some i => s.queueKey k (.load i (keyAt (s.payload k) 2))

def execKeyLoad (s : State) : Host.Outcome State Fault Refusal :=
  .next (s.runTask 0x11 (fun k t => t.keyLoadTask k))

/-- KEY_ERASE (R172). -/
def State.keyEraseTask (k : SlotId) (s : State) : State :=
  match finOfCode 16 (byteAt (s.payload k) 0) with
  | none => s.completeFree k .badArgument
  | some i => s.queueKey k (.erase i)

def execKeyErase (s : State) : Host.Outcome State Fault Refusal :=
  .next (s.runTask 0x12 (fun k t => t.keyEraseTask k))

/-- KEYS_UNLOCK (R169): the payload is always valid. -/
def execKeysUnlock (s : State) : Host.Outcome State Fault Refusal :=
  .next (s.runTask 0x13 (fun k t => t.queueKey k (.unlock (keyAt (t.payload k) 0))))

/-- KEYS_LOCK (R170). -/
def execKeysLock (s : State) : Host.Outcome State Fault Refusal :=
  .next (s.runTask 0x14 (fun k t => t.queueKey k .lock))

/-! ### The key store serves (R168 to R172) -/

def State.setKeys (s : State) (k : KeyStore) : State := { s with keys := k }

/-- The key of slot 0, if it is VALID. -/
def KeyStore.storeKey (k : KeyStore) : Option Key :=
  match k.slots[0] with
  | .empty => none
  | .valid v => some v
  | .invalid => none

/-- R169: what KEYS_UNLOCK does to the store, and its status. -/
def KeyStore.unlock (k : KeyStore) (v : Key) : KeyStore × TaskStatus :=
  match k.storeKey with
  | none => (k, .refused)
  | some key =>
    if k.attempts = 0 then (k, .blocked)
    else if v = key then ({ k with locked := false, attempts := 3 }, .ok)
    else ({ k with locked := true, attempts := k.attempts - 1 }, .wrongKey)

/-- R170. -/
def KeyStore.lock (k : KeyStore) : KeyStore × TaskStatus :=
  match k.storeKey with
  | none => (k, .refused)
  | some _ => ({ k with locked := true }, .ok)

/-- R169: the result carries the lock state and the attempts left after the task. -/
def State.serveUnlock (s : State) (k : SlotId) (v : Key) : State :=
  let r := s.keys.unlock v
  ((s.setKeys r.1).postBlock).complete k r.2 [flagByte r.1.locked, BitVec.ofNat 8 r.1.attempts]

/-- R170. -/
def State.serveLock (s : State) (k : SlotId) : State :=
  let r := s.keys.lock
  ((s.setKeys r.1).postBlock).complete k r.2 [flagByte r.1.locked]

/-- R171: LOCKED ends the task; otherwise the write begins with its slot marked INVALID. -/
def State.serveLoad (s : State) (k : SlotId) (i : KeySlotId) (key : Key) : State :=
  if s.keys.locked then s.postBlock.completeFree k .locked
  else
    (s.setKeys { s.keys with
      slots := s.keys.slots.set i.val .invalid
      writing := some { target := i, key := key, task := some k } }).postBlock

/-- R172: LOCKED ends the task; otherwise the slot becomes EMPTY. An erase of slot 0 leaves the store UNLOCKED, which
it is. -/
def State.serveErase (s : State) (k : SlotId) (i : KeySlotId) : State :=
  if s.keys.locked then s.postBlock.completeFree k .locked
  else
    ((s.setKeys { s.keys with slots := s.keys.slots.set i.val .empty }).postBlock).complete k .ok
      [BitVec.ofNat 8 i.val, KeySlot.code .empty]

/-- The task at the head is served (R168); every change of the store's items is posted (R166). -/
def State.serveKey (s : State) (t : KeyTask) : State :=
  match t.op with
  | .unlock v => s.serveUnlock t.slot v
  | .lock => s.serveLock t.slot
  | .load i key => s.serveLoad t.slot i key
  | .erase i => s.serveErase t.slot i

/-- KEY_TASK_SERVE: when no write is in progress, the head of the queue is served. -/
def execKeyTaskServe (s : State) : Host.Outcome State Fault Refusal :=
  match s.keys.queue with
  | [] => .next s
  | t :: rest =>
    .next (if s.power = .on ∧ s.keys.writing = none then (s.setKeys { s.keys with queue := rest }).serveKey t else s)

/-- R171 step 3: the slot is VALID with the new key. -/
def KeyStore.endWrite (k : KeyStore) (w : KeyWrite) : KeyStore :=
  { k with slots := k.slots.set w.target.val (.valid w.key), writing := none }

/-- R171: the task, unless RESTART has ended it (R168), ends OK with the slot and its state. -/
def State.endKeyWrite (s : State) (w : KeyWrite) : State :=
  let s1 := (s.setKeys (s.keys.endWrite w)).postBlock
  match w.task with
  | none => s1
  | some k => s1.complete k .ok [BitVec.ofNat 8 w.target.val, KeySlot.code (.valid w.key)]

/-- KEY_WRITE_END. -/
def execKeyWriteEnd (s : State) : Host.Outcome State Fault Refusal :=
  match s.keys.writing with
  | none => .next s
  | some w => .next (if s.power = .on then s.endKeyWrite w else s)

end Sys2Proof.Machine
end

