-- ==== Sys2Proof/Machine/LineEvents.lean ====
section
/-! DEFINITION. The events of a tag line (chapter Tag Lines): the start of a transaction, the end of a call, the reply
and its errors, the end of a rest with retry or failure, QUIET, WAKE, and the stuck line. -/
namespace Sys2Proof.Machine

/-- The power is on and the line stands in this state. -/
def State.lineIn (s : State) (l : LineId) (x : LineState) : Bool := decide (s.power = .on ∧ (s.line l).state = x)

/-! ### Calls (R37, R47) -/

/-- The start of a transaction for the request at the head. -/
def Transaction.start (r : LineRequest) : Transaction :=
  { request := r, retries := 0, lastError := none, disposition := .live }

/-- LINE_TRANSACTION_START (R47): the line is IDLE and high, and the head of the queue is taken. -/
def execLineTransactionStart (l : LineId) (s : State) : Host.Outcome State Fault Refusal :=
  match (s.line l).queue with
  | [] => .next s
  | r :: rest =>
    .next (if s.lineIn l .idle then s.setLine l ({ s.line l with queue := rest }.sendCall (Transaction.start r)) else s)

/-- CALL_END (R37 step 2): the reply window opens. -/
def execCallEnd (l : LineId) (s : State) : Host.Outcome State Fault Refusal :=
  .next (if s.lineIn l .calling = true ∧ (s.line l).activity = .call then
    s.modLine l (fun x => { x with state := .awaiting }) else s)

/-- R30, R44, R45: what was being sent has failed its readback: the attempt of a call, a QUIET or a WAKE; counted, and
the line rests. -/
def LineCtl.failReadback (l : LineCtl) : LineCtl :=
  match l.activity with
  | .none => l
  | .call => l.failAttempt .readback
  | .quiet n => { l with state := .resting, activity := .quiet n, counts := l.counts.attempt .readback }
  | .wake n _ fromStuck =>
    { l with state := .resting, activity := .wake n true fromStuck, counts := l.counts.attempt .readback }

/-- READBACK_FAILURE (R30): at the middle of bit number `bit` the line's level differs from the bit being sent. -/
def execReadbackFailure (l : LineId) (bit : Nat) (level : Bool) (s : State) : Host.Outcome State Fault Refusal :=
  match (s.line l).sendingBits[bit]? with
  | none => .next s
  | some b =>
    .next (if s.power = .on ∧ b ≠ level then (s.modLine l LineCtl.failReadback).touchBlock else s)

/-! ### Replies (R35 to R38) -/

/-- REPLY_WINDOW_EXPIRY (R37 step 3). -/
def execReplyWindowExpiry (l : LineId) (s : State) : Host.Outcome State Fault Refusal :=
  .next (if s.lineIn l .awaiting then (s.modLine l (fun x => x.failAttempt .noReply)).touchBlock else s)

/-- REPLY_START (R35): the line enters RECEIVING and the pace is measured. -/
def execReplyStart (l : LineId) (e : PaceEdges) (s : State) : Host.Outcome State Fault Refusal :=
  .next (if s.lineIn l .awaiting then
    s.modLine l (fun x => { x with state := .receiving, pace := measurePace e }) else s)

/-- What the reception of the reply comes to with these edges (R31, R34 to R36); nothing without a transaction. -/
def LineCtl.reception (l : LineCtl) (es : List RxEdge) : Option RxOutcome :=
  match l.inFlight, l.pace with
  | some t, .measured t8 _ => some (receive t.request.command t8 [] es)
  | some _, .malformed => some (.error .pace)
  | some _, .none => none
  | none, _ => none

/-- The clock ratio of the reply (R35). -/
def Pace.ratio : Pace → Word16
  | .none => 0
  | .malformed => 0
  | .measured _ r => r

/-- REPLY_ATTEMPT_ERROR (R38): reception ends with PACE, CHECK or LENGTH. -/
def execReplyAttemptError (l : LineId) (es : List RxEdge) (s : State) : Host.Outcome State Fault Refusal :=
  match (s.line l).reception es with
  | some (.error e) =>
    .next (if s.lineIn l .receiving then (s.modLine l (fun x => x.failAttempt e)).touchBlock else s)
  | some (.reply _ _) => .next s
  | none => .next s

/-- The line after a valid reply: IDLE, the transaction counted, and a status other than OK too (R51). -/
def LineCtl.endReply (l : LineCtl) (status : Byte) : LineCtl :=
  { l.toIdle with
    counts := if status = 0 then l.counts.transaction else l.counts.transaction.statusReply }

/-- R36, R37 step 5: the transaction completes; its outcome goes to the requester, and the line, now IDLE, examines the
QUIET conditions (R44), before a STOPPING device looks whether all is idle (R188): the model's choice (log 40). That the
line is IDLE with its counts raised before the requester is told, so that a device block posted within the hand-over
shows it so, is the model's choice too (log 43). The QUIET conditions are examined after the postings and results of
the hand-over: the model's choice too (log 50). -/
def State.endTransaction (s : State) (l : LineId) (x : LineCtl) (t : Transaction) (o : LineResult) : State :=
  (((((s.setLine l x).touchBlock).conclude t o).examineQuiet l).finish)

/-- REPLY_COMPLETE (R36). -/
def execReplyComplete (l : LineId) (es : List RxEdge) (s : State) : Host.Outcome State Fault Refusal :=
  match (s.line l).reception es, (s.line l).inFlight with
  | some (.reply st data), some t =>
    .next (if s.lineIn l .receiving then
      s.endTransaction l ((s.line l).endReply st) t (.reply st data (s.line l).pace.ratio t.retries) else s)
  | some (.reply _ _), none => .next s
  | some (.error _), _ => .next s
  | none, _ => .next s

/-! ### The end of a rest (R39, R40) -/

/-- R39, R48: another attempt is made while retries are left and the request has not been withdrawn. -/
def Transaction.retryDue (t : Transaction) (settings : Settings) : Bool :=
  decide (t.disposition = .live ∧ t.retries < settings.retryCount.toNat)

/-- R39: the retry is the same call. -/
def LineCtl.retry (l : LineCtl) (t : Transaction) : LineCtl :=
  { l with counts := l.counts.retry }.sendCall { t with retries := t.retries + 1 }

/-- R40: the rest after a failed attempt of a transaction. The line is IDLE before the failure is handed (log 43). -/
def State.restAfterCall (s : State) (l : LineId) (t : Transaction) : State :=
  let x := s.line l
  if t.retryDue s.settings then (s.setLine l (x.retry t)).touchBlock
  else
    s.endTransaction l { x.toIdle with counts := x.counts.transaction } t
      (.failure (t.lastError.getD .noReply) t.retries)

/-- R44: the rest after a QUIET that failed its readback: sent again, or the line is IDLE and held back. -/
def State.restAfterQuiet (s : State) (l : LineId) (n : Nat) : State :=
  let x := s.line l
  if n < s.settings.retryCount.toNat then
    (s.setLine l { x with state := .calling, activity := .quiet (n + 1), counts := x.counts.retry }).touchBlock
  else (s.setLine l { x.toIdle with heldBack := true }).finish

/-- R45, R43, R49: the rest after a WAKE: sent again, or the line is IDLE; leaving STUCK is posted, and LINE_RESET tasks
end. QUIET is looked at before STOPPED: the model's choice (log 40). So is that the block's posting and the results
come before it (log 50). -/
def State.restAfterWake (s : State) (l : LineId) (n : Nat) (failed fromStuck : Bool) : State :=
  let x := s.line l
  if failed = true ∧ n < s.settings.retryCount.toNat then
    s.setLine l { x with state := .calling, activity := .wake (n + 1) false fromStuck }
  else
    let s1 := s.setLine l x.toIdle
    ((((if fromStuck then s1.postBlock else s1).endResets l).examineQuiet l).finish)

/-- LINE_REST_END (R40): the line has been high for 2 ms. -/
def execLineRestEnd (l : LineId) (s : State) : Host.Outcome State Fault Refusal :=
  .next (if s.lineIn l .resting then
    match (s.line l).activity, (s.line l).inFlight with
    | .none, _ => s
    | .call, some t => s.restAfterCall l t
    | .call, none => s
    | .quiet n, _ => s.restAfterQuiet l n
    | .wake n failed fromStuck, _ => s.restAfterWake l n failed fromStuck
    else s)

/-! ### QUIET and WAKE (R44, R45) -/

/-- R44: QUIET has been sent intact; the line is QUIET and the block posted. A request that has come meanwhile wakes the
line at once, which is posted too (R51). -/
def State.enterQuiet (s : State) (l : LineId) : State :=
  let s1 := (s.modLine l (fun x => { x with state := .quiet, activity := .none })).postBlock
  if (s1.line l).queue = [] then s1 else (s1.modLine l (fun x => x.wake false)).postBlock

/-- What the controller is sending is a QUIET. -/
def LineActivity.isQuiet : LineActivity → Bool
  | .none => false
  | .call => false
  | .quiet _ => true
  | .wake _ _ _ => false

/-- QUIET_SENT (R44). -/
def execQuietSent (l : LineId) (s : State) : Host.Outcome State Fault Refusal :=
  .next (if s.lineIn l .calling = true ∧ (s.line l).activity.isQuiet = true then (s.enterQuiet l).finish else s)

/-- WAKE_SENT (R45): the line is released and rests. -/
def execWakeSent (l : LineId) (s : State) : Host.Outcome State Fault Refusal :=
  .next (if s.lineIn l .calling = true ∧ (s.line l).waking = true then
    s.modLine l (fun x => { x with state := .resting }) else s)

/-! ### The stuck line (R42, R43) -/

/-- R42: the line as it enters STUCK, before the failures are handed. -/
def LineCtl.stick (l : LineCtl) : LineCtl :=
  { l with state := .stuck, activity := .none, pace := .none, queue := [], inFlight := none,
           counts := (if l.inFlight.isSome then l.counts.transaction else l.counts).stuckEntry }

/-- R42: the transaction in flight and every queued request fail with LINE_STUCK, the block is posted, and LINE_RESET
tasks waiting on a WAKE end (R49). The counts are raised before the failures are handed (log 43). That the results of
failed tasks are written before the entry's posting is the model's choice (log 52). -/
def State.stickLine (s : State) (l : LineId) : State :=
  let x := s.line l
  let s1 := (s.setLine l x.stick).failAll x.inFlight x.queue .stuck
  (s1.postBlock.endResets l).finish

/-- LINE_STUCK_ENTRY (R42): in every state but STUCK and, while the controller drives the line, CALLING. -/
def execLineStuckEntry (l : LineId) (s : State) : Host.Outcome State Fault Refusal :=
  .next (if s.power = .on ∧ (s.line l).state ≠ .stuck ∧ (s.line l).state ≠ .calling then s.stickLine l else s)

/-- LINE_STUCK_RELEASE (R43): the line leaves STUCK with a WAKE, and the block is posted (R51). -/
def execLineStuckRelease (l : LineId) (s : State) : Host.Outcome State Fault Refusal :=
  .next (if s.lineIn l .stuck then (s.modLine l (fun x => x.wake true)).postBlock else s)

end Sys2Proof.Machine
end

