-- ==== Sys2Proof/Machine/Measure.lean ====
section
/-! DEFINITION. The events of the measurement unit (chapter Signature Measurement): a request is taken, settling ends,
the sixteenth sample has been taken; the calibration outcomes of R86 and R87. -/
namespace Sys2Proof.Machine

/-- MEASUREMENT_START (R80): the unit is IDLE and takes the head of its queue. The new unit state and queue length cause
no posting: the model's choice (log 41). -/
def execMeasurementStart (s : State) : Host.Outcome State Fault Refusal :=
  match s.meas.queue with
  | [] => .next s
  | r :: rest =>
    .next (if s.power = .on ∧ s.meas.state = .idle then
      s.modMeas (fun u =>
        { u with state := .settling, queue := rest, inFlight := some { request := r, disposition := .live } }) else s)

/-- SETTLING_END (R78). -/
def execSettlingEnd (s : State) : Host.Outcome State Fault Refusal :=
  .next (if s.power = .on ∧ s.meas.state = .settling then s.modMeas (fun u => { u with state := .sampling }) else s)

/-! ### Calibration outcomes (R86, R87) -/

/-- The status of a CALIBRATE and the record afterwards, in the order of R86 or R87. -/
def calOutcome (kind : CalKind) (ref : Word32) (r : CalRecord) (xs : List Word16) : TaskStatus × CalRecord :=
  let a := average xs
  match kind with
  | .offset =>
    if isSaturated xs = true ∨ a < -2048 ∨ 2047 < a then (.outOfRange, r)
    else (.ok, { r with offset := BitVec.ofInt 16 a })
  | .gain =>
    let d := a - r.offset.toInt
    if isSaturated xs = true ∨ d < 1000 then (.outOfRange, r)
    else
      let g := roundNat (ref.toNat * 65536) d.toNat
      if g = 0 ∨ 16777215 < g then (.outOfRange, r) else (.ok, { r with gain := BitVec.ofNat 32 g })

/-- R86, R87: the task ends with the channel, kind, saturation, S, A and the record as it stands after it. -/
def State.endCalibrate (s : State) (k : SlotId) (c : ChannelId) (kind : CalKind) (ref : Word32) (xs : List Word16) :
    State :=
  let o := if s.channelInUse c then (TaskStatus.inUse, s.calOf c) else calOutcome kind ref (s.calOf c) xs
  (s.setCal c o.2).complete k o.1
    ([BitVec.ofNat 8 c.val, kind.code, flagByte (isSaturated xs), 0] ++ bytes32 (BitVec.ofInt 32 (sampleSum xs)) ++
      bytes16 (BitVec.ofInt 16 (average xs)) ++ bytes16 o.2.offset ++ bytes32 o.2.gain)

/-! ### The end of sampling (R82, R96) -/

/-- The unit after the sixteenth sample: nothing in flight, so the excitation is off and no channel is selected, and the
measurement counted (R77, R78). It stands in SAMPLING until the outcome has been handed. -/
def MeasUnit.endSampling (u : MeasUnit) (saturated : Bool) : MeasUnit :=
  { u with inFlight := none, measurements := satInc u.measurements,
           saturated := if saturated then satInc u.saturated else u.saturated }

/-- The temperature by source (R93), read when the sampling ends. -/
def State.temperatureOf (s : State) (p : PosId) (source : TempSource) (tag : Word16) : Word16 :=
  match source with
  | .tag => tag
  | .hostValue => hostTemperature s.mem p

/-- R82: the outcome of a measurement that has not been withdrawn goes to its requester; after a position's result the
sequencer chooses (R8), after a CALIBRATE the oldest waiting task moves on (R85). -/
def State.handMeasurement (s : State) (r : MeasRequest) (xs : List Word16) : State :=
  match r.kind with
  | .signature p source tagTemp factory counter alpha beta tau =>
    (s.signatureOutcome p
      (signatureStages xs (s.calOf r.channel) (s.temperatureOf p source tagTemp) factory counter alpha beta tau)).choose p
  | .presence p => (s.presenceOutcome p (presenceStages xs (s.calOf r.channel))).choose p
  | .calibrate k kind ref => (s.endCalibrate k r.channel kind ref xs).advanceCalibration

/-- R81, R88: the outcome of a withdrawn measurement is discarded; a CALIBRATE that was cancelled ends CANCELLED, and a
CALIBRATE's end lets the oldest waiting task move on. -/
def State.discardMeasurement (s : State) (f : MeasFlight) : State :=
  match f.request.slot with
  | none => s
  | some k => (if f.disposition = .cancelled then s.completeFree k .cancelled else s).advanceCalibration

/-- R78: the unit returns to IDLE, once its outcome has been handed. -/
def State.measIdle (s : State) : State := s.modMeas (fun u => { u with state := .idle })

/-- SAMPLING_END (R78, R82): the sampling ends, the outcome is handed or discarded, and the unit returns to IDLE. That
both counts are raised before the hand-over and that the return to IDLE causes no posting (log 41), and that the block is
due for its posting also where a count has reached 65 535 (log 34), are the model's choices. -/
def execSamplingEnd (samples : Vector Word16 16) (s : State) : Host.Outcome State Fault Refusal :=
  match s.meas.inFlight with
  | none => .next s
  | some f =>
    let xs := samples.toList
    let s1 := (s.modMeas (fun u => u.endSampling (isSaturated xs))).touchBlock
    .next (if s.power = .on ∧ s.meas.state = .sampling then
      (if f.disposition = .live then s1.handMeasurement f.request xs else s1.discardMeasurement f).measIdle.finish else s)

end Sys2Proof.Machine
end

