-- ==== Sys2Proof/Machine/Timers.lean ====
section
/-! DEFINITION. The timers and inputs: interval timers (R9, R10), cycle inputs (R97, R98), INHIBIT_N (R157) and the two
posting delays (R16, R177). -/
namespace Sys2Proof.Machine

/-- The interval timer of a position is running. -/
def Timer.isRunning : Timer → Bool
  | .stopped => false
  | .held => false
  | .running _ => true

/-- R9, R10: an expiry sets the owed flag. It starts a cycle in IDLE; in CYCLE or COMMIT it counts an overrun and the
timer restarts from the applied interval. -/
def State.timerExpiry (s : State) (p : PosId) : State :=
  let x := s.pos p
  match x.seq with
  | .off => s
  | .idle => (s.setPos p { x with owed := true }).choose p
  | .cycle | .commit =>
    s.setPos p { x with owed := true, overruns := satInc x.overruns, timer := .running x.applied.interval }

/-- INTERVAL_TIMER_EXPIRY. -/
def execIntervalTimerExpiry (p : PosId) (s : State) : Host.Outcome State Fault Refusal :=
  .next (if s.power = .on ∧ (s.pos p).timer.isRunning = true then (s.timerExpiry p).finish else s)

/-- The accepted level of an input. -/
def State.level (s : State) (k : InputId) : Bool := s.levels.getLsbD k.val

/-- Set the accepted level of an input. -/
def setLevel (levels : BitVec 8) (k : InputId) (high : Bool) : BitVec 8 :=
  if high then levels ||| (1#8 <<< k.val) else levels &&& ~~~(1#8 <<< k.val)

/-- R97: the input's count and level. -/
def State.countInput (s : State) (k : InputId) : State :=
  ({ s with levels := setLevel s.levels k true, pulses := s.pulses.set k.val (s.pulses[k.val] + 1) }).touchBlock

/-- R98, R144, R145, R156: the pulse at one position, and the permits that its grace left decides. -/
def State.pulseAt (s : State) (p : PosId) : State := (s.modPos p Position.pulse).evaluatePermits

/-- The enabled positions assigned to an input (R98). -/
def State.pulsed (s : State) (k : InputId) : List PosId := allPositions.filter (fun p => (s.pos p).takesPulse k)

/-- R97, R98: the input, then the positions one at a time, in an order that the manual leaves open (R156; log 9). -/
def State.countPulse (s : State) (k : InputId) : State :=
  ((inFreeOrder s.free (s.pulsed k)).foldl (fun t p => t.pulseAt p) (s.countInput k)).draw

/-- R97, R98, R8: the pulse, then the choices of IDLE sequencers whose pending usage has reached the threshold. That the
pulse is counted at every position of the input before any of them chooses is the model's choice (log 49). -/
def State.pulseInput (s : State) (k : InputId) : State := ((s.countPulse k).chooseAmong (s.pulsed k)).finish

/-- CYCLE_PULSE: a change from accepted low to accepted high (R97). -/
def execCyclePulse (k : InputId) (s : State) : Host.Outcome State Fault Refusal :=
  .next (if s.power = .on ∧ s.level k = false then s.pulseInput k else s)

/-- CYCLE_INPUT_ACCEPTED_LOW (R97). -/
def execCycleInputAcceptedLow (k : InputId) (s : State) : Host.Outcome State Fault Refusal :=
  .next (if s.power = .on then { s with levels := setLevel s.levels k false } else s)

/-- INHIBIT_N_CHANGE (R157): a new accepted level; every group is evaluated. -/
def execInhibitNChange (level : Bool) (s : State) : Host.Outcome State Fault Refusal :=
  .next (if s.power = .on ∧ s.inhibitN ≠ level then ({ s with inhibitN := level }).evaluatePermits else s)

/-- STATE_HALF_POSTING_DELAY (R16): 250 ms after the first pulse change not yet posted. -/
def execStateHalfPostingDelay (p : PosId) (s : State) : Host.Outcome State Fault Refusal :=
  .next (if s.power = .on ∧ (s.pos p).pulseDirty = true then s.postHalf p else s)

/-- DEVICE_BLOCK_POSTING_DELAY (R177): 250 ms after the first count change not yet posted. -/
def execDeviceBlockPostingDelay (s : State) : Host.Outcome State Fault Refusal :=
  .next (if s.power = .on ∧ s.blockDirty = true then s.postBlock else s)

end Sys2Proof.Machine
end

