-- ==== Sys2Proof/Machine/Dispatch.lean ====
section
/-! DEFINITION. The meaning of every command: one arm per constructor, each a call of the command's own definition. -/
namespace Sys2Proof.Machine

def exec (i : Instr) (s : State) : Host.Outcome State Fault Refusal :=
  match i with
  | .powerOn => Sys2Proof.Machine.execPowerOn s
  | .resetNAssert => Sys2Proof.Machine.execResetNAssert s
  | .resetNRelease inhibitN cyc => Sys2Proof.Machine.execResetNRelease inhibitN cyc s
  | .startupCheckEnd damaged => Sys2Proof.Machine.execStartupCheckEnd damaged s
  | .restart => Sys2Proof.Machine.execRestart s
  | .stop => Sys2Proof.Machine.execStop s
  | .resume => Sys2Proof.Machine.execResume s
  | .attentionWrite value => Sys2Proof.Machine.execAttentionWrite value s
  | .attentionEnableWrite value => Sys2Proof.Machine.execAttentionEnableWrite value s
  | .registerWriteOther register value => Sys2Proof.Machine.execRegisterWriteOther register value s
  | .hostWordWrite word value => Sys2Proof.Machine.execHostWordWrite word value s
  | .watchedWordWrite index value => Sys2Proof.Machine.execWatchedWordWrite index value s
  | .configEditionTaken => Sys2Proof.Machine.execConfigEditionTaken s
  | .settingsEditionTaken => Sys2Proof.Machine.execSettingsEditionTaken s
  | .taskBadKind => Sys2Proof.Machine.execTaskBadKind s
  | .cancel => Sys2Proof.Machine.execCancel s
  | .ownerWordMisuse => Sys2Proof.Machine.execOwnerWordMisuse s
  | .inspect => Sys2Proof.Machine.execInspect s
  | .tagRead => Sys2Proof.Machine.execTagRead s
  | .tagWrite => Sys2Proof.Machine.execTagWrite s
  | .lineReset => Sys2Proof.Machine.execLineReset s
  | .calLoad => Sys2Proof.Machine.execCalLoad s
  | .calibrate => Sys2Proof.Machine.execCalibrate s
  | .usageCommit => Sys2Proof.Machine.execUsageCommit s
  | .retiredImport => Sys2Proof.Machine.execRetiredImport s
  | .retiredExport => Sys2Proof.Machine.execRetiredExport s
  | .retiredRemove => Sys2Proof.Machine.execRetiredRemove s
  | .release => Sys2Proof.Machine.execRelease s
  | .rulesLoad => Sys2Proof.Machine.execRulesLoad s
  | .permitHold => Sys2Proof.Machine.execPermitHold s
  | .permitFree => Sys2Proof.Machine.execPermitFree s
  | .classLoad => Sys2Proof.Machine.execClassLoad s
  | .classDrop => Sys2Proof.Machine.execClassDrop s
  | .keyLoad => Sys2Proof.Machine.execKeyLoad s
  | .keyErase => Sys2Proof.Machine.execKeyErase s
  | .keysUnlock => Sys2Proof.Machine.execKeysUnlock s
  | .keysLock => Sys2Proof.Machine.execKeysLock s
  | .keyTaskServe => Sys2Proof.Machine.execKeyTaskServe s
  | .keyWriteEnd => Sys2Proof.Machine.execKeyWriteEnd s
  | .lineTransactionStart line => Sys2Proof.Machine.execLineTransactionStart line s
  | .readbackFailure line bit level => Sys2Proof.Machine.execReadbackFailure line bit level s
  | .callEnd line => Sys2Proof.Machine.execCallEnd line s
  | .replyWindowExpiry line => Sys2Proof.Machine.execReplyWindowExpiry line s
  | .replyStart line pace => Sys2Proof.Machine.execReplyStart line pace s
  | .replyAttemptError line edges => Sys2Proof.Machine.execReplyAttemptError line edges s
  | .replyComplete line edges => Sys2Proof.Machine.execReplyComplete line edges s
  | .lineRestEnd line => Sys2Proof.Machine.execLineRestEnd line s
  | .quietSent line => Sys2Proof.Machine.execQuietSent line s
  | .wakeSent line => Sys2Proof.Machine.execWakeSent line s
  | .lineStuckEntry line => Sys2Proof.Machine.execLineStuckEntry line s
  | .lineStuckRelease line => Sys2Proof.Machine.execLineStuckRelease line s
  | .measurementStart => Sys2Proof.Machine.execMeasurementStart s
  | .settlingEnd => Sys2Proof.Machine.execSettlingEnd s
  | .samplingEnd samples => Sys2Proof.Machine.execSamplingEnd samples s
  | .intervalTimerExpiry position => Sys2Proof.Machine.execIntervalTimerExpiry position s
  | .cyclePulse input => Sys2Proof.Machine.execCyclePulse input s
  | .inhibitNChange level => Sys2Proof.Machine.execInhibitNChange level s
  | .stateHalfPostingDelay position => Sys2Proof.Machine.execStateHalfPostingDelay position s
  | .deviceBlockPostingDelay => Sys2Proof.Machine.execDeviceBlockPostingDelay s
  | .powerLoss => Sys2Proof.Machine.execPowerLoss s
  | .cycleInputAcceptedLow input => Sys2Proof.Machine.execCycleInputAcceptedLow input s

end Sys2Proof.Machine
end

