-- ==== Sys2Proof/Safety.lean ====
section
/-! DEFINITION. What must hold of the part at every moment: the permits follow their inputs (R155, R156), the exchange
memory keeps its canonical form, the watch queue holds no duplicates (R175), the key store's lock and attempts agree
(R166, R169), and the ranges of the settings (R179) and the calibration records (R83). Then the conditions under which
statements speak of the task unit's next entry. -/
namespace Sys2Proof.Machine

/-- R155: the allowing states. -/
def Position.allows (x : Position) : Prop :=
  x.verdict = .cleared ∨ (x.verdict = .expired ∧ x.applied.allowExpired = true) ∨
    (x.verdict = .vacant ∧ x.applied.vacancyAllows = true) ∨
    ((x.verdict = .arriving ∨ x.verdict = .doubtful) ∧ x.grace ≠ 0)

/-- R155: the conditions under which the permit of group `g` may be ON. -/
def State.mayRun (s : State) (g : GroupId) : Prop :=
  s.device = .running ∧ s.inhibitN = true ∧ s.permits.groupEnable.getLsbD g.val = true ∧
    s.permits.holds.getLsbD g.val = false ∧
    ∀ p : PosId, (s.pos p).enabled = true → (s.pos p).applied.group = some g →
      (s.pos p).applied.enforcement = .enforce → (s.pos p).allows

/-- Every permit and blocker set is the one its inputs call for; without power, or in reset, every permit is OFF. -/
def State.permitsFollow (s : State) : Prop :=
  (s.power = .on → s.permitsCurrent = true) ∧ (s.power ≠ .on → s.permits.permitWord = 0)

/-- The exchange memory is in its canonical form. -/
def State.memCanonical (s : State) : Prop := s.mem.wf = true

/-- R175: the watch queue holds no duplicates, so it never holds more than the 33 watched words. -/
def State.watchDistinct (s : State) : Prop := s.watch.Nodup

/-- R166, R169, R170: attempts left lie within 0..3 and are 0 only in a LOCKED store; once start-up has ended a store
is LOCKED only with a VALID slot 0. -/
def State.lockSound (s : State) : Prop :=
  s.keys.attempts ≤ 3 ∧ (s.keys.attempts = 0 → s.keys.locked = true) ∧
    (s.device ≠ .starting → s.keys.locked = true → (s.keys.slots[0]).isValid = true)

/-- R179: the settings in force lie in their ranges. -/
def State.settingsInRange (s : State) : Prop :=
  s.settings.retryCount.toNat ≤ 3 ∧ 1 ≤ s.settings.presenceLimit.toNat ∧ s.settings.presenceLimit.toNat ≤ 4000000

/-- R83: every calibration record lies in its range. -/
def State.calInRange (s : State) : Prop :=
  ∀ c : ChannelId, -2048 ≤ (s.calOf c).offset.toInt ∧ (s.calOf c).offset.toInt ≤ 2047 ∧
    1 ≤ (s.calOf c).gain.toNat ∧ (s.calOf c).gain.toNat ≤ 16777215

/-- An address of the exchange memory that the device does not write but for RETIRED_EXPORT: the settings record, the
configuration halves, kind and payload of the task slots, the bulk area and the unused ranges (Table 1 of Exchange
Memory). -/
def hostByte (a : Nat) : Bool :=
  decide (a < Memory.size ∧ 128 ≤ a ∧ ¬ (0x0100 ≤ a ∧ a < 0x0D00 ∧ 0x40 ≤ (a - 0x0100) % 128) ∧
    ¬ (0x0D00 ≤ a ∧ a < 0x0D90) ∧ ¬ (0x1800 ≤ a ∧ a < 0x1B00) ∧
    ¬ (0x1000 ≤ a ∧ a < 0x1800 ∧ ((a - 0x1000) % 256 < 2 ∨ 0x82 ≤ (a - 0x1000) % 256)))

/-! ### What statements say is unchanged -/

/-- The part of the state that no work of the device moves: supply, device state, waiting commands, the watch queue,
registers the host writes, settings, inputs, rules, classes, keys, holds, calibration records, and the host's bytes of
the exchange memory. -/
structure Frame where
  power : Power
  pending : List Instr
  device : DeviceState
  clearing : Bool
  watch : List WatchId
  misuse : Word16
  attentionEnable : BitVec 4
  settings : Settings
  settingsStatus : ConfigStatus
  settingsExamined : Word16
  settingsApplied : Word16
  levels : BitVec 8
  pulses : Vector Word32 8
  inhibitN : Bool
  rules : Vector Rule 8
  ruleLoads : Word16
  classes : List ClassRecord
  keys : KeyStore
  holds : Byte
  groupEnable : Byte
  cal : Vector CalRecord 24
  host : List Byte

/-- The host's bytes in the order of their addresses. -/
@[irreducible] def Memory.hostBytes (m : Memory) : List Byte := ((List.range Memory.size).filter hostByte).map m.read

def State.frame (s : State) : Frame :=
  { power := s.power, pending := s.pending, device := s.device, clearing := s.clearing, watch := s.watch,
    misuse := s.misuse, attentionEnable := s.attentionEnable, settings := s.settings,
    settingsStatus := s.settingsStatus, settingsExamined := s.settingsExamined, settingsApplied := s.settingsApplied,
    levels := s.levels, pulses := s.pulses, inhibitN := s.inhibitN, rules := s.rules, ruleLoads := s.ruleLoads,
    classes := s.classes, keys := s.keys, holds := s.permits.holds, groupEnable := s.permits.groupEnable,
    cal := s.meas.cal, host := s.mem.hostBytes }

/-- Every byte of the exchange memory outside the `len` bytes from `a` reads as before. -/
def Memory.sameOutside (m n : Memory) (a len : Nat) : Prop :=
  ∀ b, b < Memory.size → ¬ (a ≤ b ∧ b < a + len) → n.read b = m.read b

/-- R188: all is idle. -/
def State.atRest (s : State) : Prop :=
  (∀ p : PosId, (s.pos p).seq = .idle ∨ (s.pos p).seq = .off) ∧
    (∀ l : LineId, ((s.line l).state = .idle ∨ (s.line l).state = .quiet ∨ (s.line l).state = .stuck) ∧
      (s.line l).queue = []) ∧ s.meas.inFlight = none ∧ s.meas.queue = []

/-- The commands that change bytes of the host: its own writes, the supply and reset (which clear the memory), and
RETIRED_EXPORT. -/
def writesHostBytes : Instr → Bool
  | .powerOn | .resetNAssert | .resetNRelease _ _ | .powerLoss | .hostWordWrite _ _ | .watchedWordWrite _ _
  | .retiredExport => true
  | _ => false

/-- `r` is the nearest natural number to `n / d`, halves up (00_scope.md section 5). -/
def isRounded (n d r : Nat) : Prop := 2 * r * d ≤ 2 * n + d ∧ 2 * n + d < 2 * (r + 1) * d

/-- `r` is the nearest integer to `n / d`, halves away from zero (00_scope.md section 5). -/
def isRoundedInt (n : Int) (d : Nat) (r : Int) : Prop := isRounded n.natAbs d r.natAbs ∧ 0 ≤ n * r

/-- A character of a reply as the controller samples it: an edge after `gap`, the start bit, the byte, the stop bit. -/
def charEdge (gap : Nat) (b : Byte) : RxEdge := { gap := gap, samples := 1#1 ++ b ++ 0#1 }

/-- R22, R34: the data a reply to this command carries with this status (Table 1 of Tag Lines). -/
def replyData (c : LineCommand) (status : Byte) (data : List Byte) : Prop :=
  match c with
  | .readBlocks _ count =>
    if status = 0 ∨ status = 6 then
      ∃ n blocks, data = n :: blocks ∧ blocks.length = 4 * n.toNat ∧ (status = 0 → n = count) ∧
        (status = 6 → 1 ≤ n.toNat ∧ n.toNat < count.toNat)
    else data = []
  | .writeBlock _ _ => data = []
  | .challenge _ => data.length = if status = 0 then 8 else 0
  | .addUsage _ => data.length = if status = 0 then 4 else 0

/-- The usage counts of a position (Table 1 of Usage Accounting). -/
structure UsageCounts where
  pendingUse : Word16
  inFlight : Word16
  committed : Word32
  lost : Word32
  dropped : Word32
  unconfirmed : Bool

def Position.usage (x : Position) : UsageCounts :=
  { pendingUse := x.pendingUse, inFlight := x.inFlight, committed := x.committed, lost := x.lost, dropped := x.dropped,
    unconfirmed := x.unconfirmed }

/-- R151: the field of rule entry `i` of the payload `b` that fails first, if any (1 group, 2 quantity, 3 sense,
4 lo..hi). -/
def ruleFault (b : List Byte) (i : Nat) : Option Byte :=
  if byteAt b (14 * i) = 0 then none
  else if 3 < (byteAt b (14 * i + 1)).toNat then some 1
  else if 6 < (byteAt b (14 * i + 2)).toNat then some 2
  else if 1 < (byteAt b (14 * i + 3)).toNat then some 3
  else if (word32At b (14 * i + 10)).toInt < (word32At b (14 * i + 6)).toInt then some 4
  else none

/-- R162: the structural field of the class record in the payload `b` that fails first, if any (1 code, 2 key slot,
3 mode, 4 band). -/
def classFault (b : List Byte) : Option Byte :=
  if word16At b 0 = 0 then some 1
  else if (byteAt b 2).toNat = 0 ∨ 15 < (byteAt b 2).toNat then some 2
  else if 1 < (byteAt b 3).toNat then some 3
  else if (word16At b 14).toNat < (word16At b 12).toNat then some 4
  else none

/-! ### The layouts of Tables 3 and 5 of Formats -/

/-- The twenty bytes of a line in the device block, from offset `i`. -/
def LineCtl.laidOut (x : LineCtl) (b : List Byte) (i : Nat) : Prop :=
  byteAt b i = x.state.code ∧ byteAt b (i + 1) = BitVec.ofNat 8 x.queue.length ∧
    word16At b (i + 2) = x.counts.transactions ∧ word16At b (i + 4) = x.counts.retries ∧
    word16At b (i + 6) = x.counts.readback ∧ word16At b (i + 8) = x.counts.noReply ∧
    word16At b (i + 10) = x.counts.pace ∧ word16At b (i + 12) = x.counts.check ∧
    word16At b (i + 14) = x.counts.length ∧ word16At b (i + 16) = x.counts.status ∧
    word16At b (i + 18) = x.counts.stuck

/-- `b` is the first part of the device block of `s` (Table 3). -/
def State.blockLaidOut (s : State) (b : List Byte) : Prop :=
  b.length = 128 ∧ word16At b 0x00 = s.blockEdition ∧ byteAt b 0x02 = s.device.code ∧
    byteAt b 0x03 = s.settingsStatus.code ∧ word16At b 0x04 = s.settingsExamined ∧
    word16At b 0x06 = s.settingsApplied ∧ word32At b 0x08 = s.settings.presenceLimit ∧
    byteAt b 0x0C = s.settings.retryCount ∧ byteAt b 0x0D = (if s.settings.quiet = true then 1 else 0) ∧
    byteAt b 0x0E = s.settings.groupMask ∧ byteAt b 0x0F = BitVec.ofNat 8 s.watch.length ∧
    word16At b 0x10 = s.misuse ∧ byteAt b 0x12 = s.permits.permitWord ∧ byteAt b 0x13 = s.levels ∧
    byteAt b 0x14 = (if s.inhibitN = true then 1 else 0) ∧ byteAt b 0x15 = BitVec.ofNat 8 s.classes.length ∧
    byteAt b 0x16 = BitVec.ofNat 8 s.identity.length ∧
    byteAt b 0x17 = BitVec.ofNat 8 (s.identity.filter (fun r => r.bound.isSome)).length ∧
    word16At b 0x18 = s.evictions ∧ byteAt b 0x1A = BitVec.ofNat 8 s.retired.length ∧
    byteAt b 0x1B = BitVec.ofNat 8 (s.rules.toList.filter (fun r => r.enabled)).length ∧
    word16At b 0x1C = s.retiredDropped ∧ word16At b 0x1E = s.ruleLoads ∧
    (∀ g : GroupId, byteAt b (0x20 + g.val) = s.permits.blockers[g.val]) ∧
    (∀ k : Fin 16, BitVec.ofNat 8 ((word32At b 0x28).toNat / 4 ^ k.val % 4) = (s.keys.slots[k.val]).code) ∧
    byteAt b 0x2C = (if s.keys.locked = true then 1 else 0) ∧ byteAt b 0x2D = BitVec.ofNat 8 s.keys.attempts ∧
    byteAt b 0x2E = BitVec.ofNat 8 s.keys.queue.length ∧ byteAt b 0x2F = BitVec.ofNat 8 s.keys.damaged ∧
    byteAt b 0x30 = s.meas.state.code ∧ byteAt b 0x31 = BitVec.ofNat 8 s.meas.queue.length ∧
    word16At b 0x32 = s.meas.measurements ∧ word16At b 0x34 = s.meas.saturated ∧ byteAt b 0x36 = 0 ∧
    byteAt b 0x37 = 0 ∧ s.lineA.laidOut b 0x38 ∧ s.lineB.laidOut b 0x4C ∧
    ∀ j : InputId, word32At b (0x60 + 4 * j.val) = s.pulses[j.val]

/-- `b` is the second part of the device block: the calibration records. -/
def State.calLaidOut (s : State) (b : List Byte) : Prop :=
  b.length = 144 ∧ ∀ c : ChannelId,
    word16At b (6 * c.val) = (s.calOf c).offset ∧ word32At b (6 * c.val + 2) = (s.calOf c).gain

/-- `b` is the state half of a position (Table 5), the byte at 0x40 first. -/
def Position.halfLaidOut (x : Position) (b : List Byte) : Prop :=
  let stage : Byte := match x.cycle with
    | none => 0
    | some c => c.stage.code
  b.length = 64 ∧ word16At b 0x00 = x.edition ∧ byteAt b 0x02 = x.verdict.code ∧ byteAt b 0x03 = x.reason.code ∧
    word16At b 0x04 = x.findings ∧ (byteAt b 0x06).getLsbD 0 = x.wear ∧ (byteAt b 0x06).getLsbD 1 = x.owed ∧
    (byteAt b 0x06).getLsbD 2 = x.unconfirmed ∧ (byteAt b 0x06).getLsbD 3 = decide (x.missed ≠ 0) ∧
    (byteAt b 0x06).toNat < 16 ∧ byteAt b 0x07 = x.uid.code ∧ word64At b 0x08 = x.uid.value ∧
    word16At b 0x10 = x.classCode ∧ byteAt b 0x12 = x.seq.code ∧ byteAt b 0x13 = stage ∧ word16At b 0x14 = x.doubt ∧
    word16At b 0x16 = x.clean ∧ word16At b 0x18 = x.grace ∧ word16At b 0x1A = x.clockRatio ∧
    word16At b 0x1C = x.tagTemp ∧ byteAt b 0x1E = x.configStatus.code ∧ byteAt b 0x1F = x.refusal.code ∧
    word32At b 0x20 = x.rMeas ∧ word32At b 0x24 = x.r20 ∧ word32At b 0x28 = x.rExp ∧ word32At b 0x2C = x.deviation ∧
    word32At b 0x30 = x.known ∧ word16At b 0x34 = x.pendingUse ∧ word16At b 0x36 = x.inFlight ∧
    word32At b 0x38 = x.committed ∧ word32At b 0x3C = x.lost

/-- `b` is the extension of a position (Table 5). -/
def Position.extensionLaidOut (x : Position) (b : List Byte) : Prop :=
  b.length = 32 ∧ word32At b 0x00 = x.dropped ∧ word32At b 0x04 = x.cycleNumber ∧
    word32At b 0x08 = x.cyclesCompleted ∧ word16At b 0x0C = x.overruns ∧ word16At b 0x0E = x.examined ∧
    word16At b 0x10 = x.appliedEdition ∧ byteAt b 0x12 = lineErrorCode x.lastLineError ∧
    ∀ i, 0x13 ≤ i → byteAt b i = 0

/-- The codes of Table 2 of Formats in the device's records. -/
def codesOfTable2 : Prop :=
  [DeviceState.starting, .running, .stopping, .stopped].map DeviceState.code = [0, 1, 2, 3] ∧
  [Verdict.disabled, .vacant, .arriving, .cleared, .doubtful, .rejected, .barred, .expired].map Verdict.code =
    [0, 1, 2, 3, 4, 5, 6, 7] ∧
  [Reason.none, .noKey, .noClass, .noChannel, .link, .aborted].map Reason.code = [0, 1, 2, 3, 4, 5] ∧
  (∀ u, [UidHeld.none, .bound u, .read u].map UidHeld.code = [0, 1, 2] ∧ UidHeld.none.value = 0 ∧
    (UidHeld.bound u).value = u ∧ (UidHeld.read u).value = u) ∧
  [SeqState.off, .idle, .cycle, .commit].map SeqState.code = [0, 1, 2, 3] ∧
  [Stage.identify, .checks, .challenge, .signature, .presence, .screen, .verdict].map Stage.code =
    [1, 2, 3, 4, 5, 6, 7] ∧
  [ConfigStatus.none, .applied, .appliedClamped, .refused].map ConfigStatus.code = [0, 1, 2, 3] ∧
  [RefusalReason.none, .badAddress, .badValue, .addressInUse, .channelInUse].map RefusalReason.code = [0, 1, 2, 3, 4] ∧
  [none, some LineError.readback, some .noReply, some .pace, some .check, some .length, some .stuck, some .reset].map
    lineErrorCode = [0, 1, 2, 3, 4, 5, 6, 7] ∧
  [LineState.idle, .calling, .awaiting, .receiving, .resting, .quiet, .stuck].map LineState.code =
    [0, 1, 2, 3, 4, 5, 6] ∧
  [UnitState.idle, .settling, .sampling].map UnitState.code = [0, 1, 2] ∧
  (∀ k, [KeySlot.empty, .valid k, .invalid].map KeySlot.code = [0, 1, 2]) ∧
  [SignatureMode.none, .required].map SignatureMode.code = [0, 1] ∧ [CalKind.offset, .gain].map CalKind.code = [0, 1]

/-- The task status codes of section 12.6. -/
def codesOfStatus : Prop :=
  [TaskStatus.ok, .clamped, .cancelled, .restarted, .badKind, .badArgument, .badRange, .noSuch, .refused, .inUse].map
    TaskStatus.code = [0, 1, 2, 3, 0x10, 0x11, 0x12, 0x13, 0x14, 0x15] ∧
  [TaskStatus.locked, .wrongKey, .blocked, .tableFull, .lineFailed, .lineStuck, .lineReset, .outOfRange].map
    TaskStatus.code = [0x20, 0x21, 0x22, 0x23, 0x30, 0x31, 0x32, 0x33]

/-! ### Requests that fail -/

/-- Requests that fail with `e` (R41, R42, R49) do so one after another, the transaction in flight first, then the queue in
its order. A task ends with status `st`, the error's code and the retries (R27; its tag status byte is free, log 32). A
position takes the failure and chooses (R8). A withdrawn transaction is discarded, and a cancelled one ends its task
CANCELLED (R48, R29). -/
def failsInOrder (e : LineError) (st : TaskStatus) (code : Byte) : Prop :=
  (∀ v : State, v.failAll none [] e = v ∧
    (∀ r q, v.failAll none (r :: q) e = (v.handLine r (.failure e 0)).failAll none q e) ∧
    ∀ t q, v.failAll (some t) q e = (v.conclude t (.failure e t.retries)).failAll none q e) ∧
  (∀ (v : State) (r : LineRequest) (n : Nat), let t := v.handLine r (.failure e n)
    (∀ p, r.requester = .position p → t = (v.positionLine p (.failure e n)).choose p) ∧
    ∀ k, r.requester = .task k → ∃ d, t = (v.complete k st [d, 0, 0, 0, BitVec.ofNat 8 n, code]).draw) ∧
  ∀ (v : State) (x : Transaction) (n : Nat), let t := v.conclude x (.failure e n)
    (x.disposition = .live → t = v.handLine x.request (.failure e n)) ∧ (x.disposition = .withdrawn → t = v) ∧
    ∀ k, x.disposition = .cancelled → x.request.requester = .task k → t = v.completeFree k .cancelled

/-! ### The head of the watch queue -/

/-- The task unit may take the entry `i` at the head of the watch queue (R176). -/
def State.entryAtHead (s : State) (i : WatchId) (rest : List WatchId) : Prop :=
  s.power = .on ∧ s.device ≠ .starting ∧ s.watch = i :: rest

/-- The entry at the head is the owner word of slot `k`, and it brings a task of this kind (R183). -/
def State.taskAtHead (s : State) (k : SlotId) (kind : Word16) (rest : List WatchId) : Prop :=
  s.entryAtHead (watchOfSlot k) rest ∧ s.owner k = ownerReady ∧ (s.slot k).mark ≠ .held ∧ s.kindWord k = kind

/-- The state without the entry at the head. -/
def State.withWatch (s : State) (rest : List WatchId) : State := { s with watch := rest }

/-- The state with the task of slot `k` in device hands (R183). -/
def State.taken (s : State) (k : SlotId) (rest : List WatchId) : State := (s.withWatch rest).takeSlot k

/-- The payload of slot `k` as it stands in the exchange memory. -/
def State.slotPayload (s : State) (k : SlotId) : List Byte := s.mem.bytes (slotAddr k + 0x04) 126

end Sys2Proof.Machine
end

