-- ==== Sys2Proof/WellFormed.lean ====
section
/-! DEFINITION. Which operands a command can carry: what the row of the opcode table says of the command and no more. A
command that is not well formed has a meaning too (log 22). -/
namespace Sys2Proof

/-- The longest call has 135 bits: break, delimiter and the twelve characters of a CHALLENGE (R32, Table 7 of
Formats). -/
def maxCallBits : Nat := 135

/-- HOST_WORD_WRITE is a write to an unwatched word. -/
def wfHostWord (word : BitVec 13) : Bool := decide (Machine.watchAt (2 * word.toNat) = none)

/-- REGISTER_WRITE_OTHER is a write to IDENT, or a CONTROL value that names no command. -/
def wfRegisterOther (r : BitVec 2) (v : Word16) : Bool :=
  decide (r = 0 ∨ (r = 1 ∧ v ≠ Machine.codeStop ∧ v ≠ Machine.codeResume ∧ v ≠ Machine.codeRestart))

/-- Successive falling edges are at least one unit of the timestamp apart (R35). -/
def wfPace (e : PaceEdges) : Bool := decide (1 ≤ e.span1 ∧ 1 ≤ e.span2 ∧ 1 ≤ e.span3 ∧ 1 ≤ e.span4)

/-- The operands fit the command. -/
def Instr.wf : Instr → Bool
  | .hostWordWrite word _ => wfHostWord word
  | .registerWriteOther r v => wfRegisterOther r v
  | .readbackFailure _ bit _ => decide (bit < maxCallBits)
  | .replyStart _ e => wfPace e
  | _ => true

end Sys2Proof
end

