-- ==== Sys2Proof/Certificates/Slice0/Obligations.lean ====
section
/-! DEFINITION. The statements about the model, one definition each. The first part is about every step and about the
operations that the commands share (posting, completing and taking a task, the tail of a step, the sequencer's choice,
placing a request); the statements about single commands give the next state in terms of these. -/
section Statements

open Sys2Proof Sys2Proof.Machine

/-! ### Every step -/

/-- A step runs the command at the front of the queue on the state with the queue's rest; an empty queue idles
(log 3). -/
def Obligations.StepRunsFrontCommand : Prop :=
  (∀ (c : Instr) (rest : List Instr) (s : State),
    step { s with pending := c :: rest } = exec c { s with pending := rest }) ∧
  ∀ s : State, s.pending = [] → step s = .next s

/-- Every command answers a next state, whatever its operands and the state, and leaves the waiting commands alone: the
manual names no stop, and a command that cannot arise in the present state changes nothing (log 1). -/
def Obligations.CommandsAnswerNext : Prop :=
  ∀ (c : Instr) (s : State), ∃ t, exec c s = .next t ∧ t.pending = s.pending

/-- Every step keeps the permits and the blocker sets in line with their inputs (R155, R156). -/
def Obligations.PermitsFollowKept : Prop :=
  ∀ s t : State, s.permitsFollow → step s = .next t → t.permitsFollow

/-- R155: a permit output is high exactly when every condition holds, wherever the permits follow. -/
def Obligations.PermitOutputExactly : Prop :=
  ∀ (s : State) (g : GroupId), s.permitsFollow → (s.permitOutput g = true ↔ s.power = .on ∧ s.mayRun g)

/-- R161, R154: a blocker set names one reason for each condition that fails, and is empty exactly when the permit is
ON. -/
def Obligations.BlockerSetsNameReasons : Prop :=
  ∀ (s : State) (g : GroupId), s.permitsFollow → s.power = .on →
    let b := s.permits.blockers[g.val]
    (b.getLsbD 0 = true ↔ s.device ≠ .running) ∧ (b.getLsbD 1 = true ↔ s.inhibitN = false) ∧
    (b.getLsbD 2 = true ↔ s.permits.groupEnable.getLsbD g.val = false) ∧
    (b.getLsbD 3 = true ↔ s.permits.holds.getLsbD g.val = true) ∧
    (b.getLsbD 4 = true ↔ ∃ p : PosId, (s.pos p).enabled = true ∧ (s.pos p).applied.group = some g ∧
      (s.pos p).applied.enforcement = .enforce ∧ ¬ (s.pos p).allows) ∧
    (∀ i : Nat, 5 ≤ i → b.getLsbD i = false) ∧ (b = 0 ↔ s.permitOutput g = true)

/-- Every step keeps the canonical form of the exchange memory. -/
def Obligations.MemoryCanonicalKept : Prop :=
  ∀ s t : State, s.memCanonical → step s = .next t → t.memCanonical

/-- R175: every step keeps the watch queue free of duplicates, so it never holds more than 33 entries. -/
def Obligations.WatchQueueKept : Prop :=
  (∀ s t : State, s.watchDistinct → step s = .next t → t.watchDistinct) ∧
  ∀ s : State, s.watchDistinct → s.watch.length ≤ 33

/-- R166, R169, R170: every step keeps lock state, attempts left and slot 0 in agreement. -/
def Obligations.LockSoundKept : Prop :=
  ∀ s t : State, s.lockSound → step s = .next t → t.lockSound

/-- R179, R83: every step keeps the settings and the calibration records in their ranges. -/
def Obligations.RangesKept : Prop :=
  ∀ s t : State, s.settingsInRange → s.calInRange → step s = .next t → t.settingsInRange ∧ t.calInRange

/-- Table 1 of Exchange Memory: no command but a host write, the supply, reset and RETIRED_EXPORT changes a byte that
the host writes. -/
def Obligations.HostBytesKept : Prop :=
  ∀ (c : Instr) (s t : State) (a : Nat), writesHostBytes c = false → hostByte a = true → exec c s = .next t →
    t.mem.read a = s.mem.read a

/-- The invariants hold at reset. -/
def Obligations.InvariantsHoldAtReset : Prop :=
  State.reset.permitsFollow ∧ State.reset.memCanonical ∧ State.reset.watchDistinct ∧ State.reset.lockSound ∧
    State.reset.settingsInRange ∧ State.reset.calInRange

/-! ### Postings, tasks and the tail of a step -/

/-- R177, R178, R192, R193: a posting raises the edition by 2 (made whole in one step, log 4), writes the whole record
with its present values, sets POSTED, and changes nothing else; the bytes of the device block, of a state half and of
its extension are the fields of Tables 3 and 5 of Formats at their offsets, unassigned bytes 0, with the codes of Table
2. (That a posting made in STARTING is kept is log 47, the model's choice.) -/
def Obligations.RecordsPosted : Prop :=
  (∀ s : State, let t := s.postBlock
    t = { s with blockEdition := s.blockEdition + 2, blockDirty := false, mem := t.mem,
                 attention := s.attention ||| 0b0001 } ∧
    t.mem.bytes 0x0000 128 = t.blockBytes ∧ t.mem.bytes 0x0D00 144 = t.calBytes ∧
    ∀ a, a < Memory.size → ¬ a < 128 → ¬ (0x0D00 ≤ a ∧ a < 0x0D90) → t.mem.read a = s.mem.read a) ∧
  (∀ (s : State) (p : PosId), let t := s.postHalf p
    let x := { s.pos p with edition := (s.pos p).edition + 2, pulseDirty := false }
    t = { s.setPos p x with mem := t.mem, attention := s.attention ||| 0b0001 } ∧
    t.mem.bytes (0x0140 + 128 * p.val) 64 = x.halfBytes ∧ t.mem.bytes (0x1800 + 32 * p.val) 32 = x.extensionBytes ∧
    ∀ a, a < Memory.size → ¬ (0x0140 + 128 * p.val ≤ a ∧ a < 0x0180 + 128 * p.val) →
      ¬ (0x1800 + 32 * p.val ≤ a ∧ a < 0x1820 + 32 * p.val) → t.mem.read a = s.mem.read a) ∧
  (∀ s : State, s.blockLaidOut s.blockBytes ∧ s.calLaidOut s.calBytes) ∧
  (∀ x : Position, x.halfLaidOut x.halfBytes ∧ x.extensionLaidOut x.extensionBytes) ∧ codesOfTable2

/-- R186: a completion writes the whole result, writes DONE unless the owner word holds FREE or DONE, marks the slot
ANSWERED or HOST, sets POSTED, and changes nothing else. Where no rule states the data of a task's result, the
completion is the same with that status and some data (the model's choice, log 7; unassigned bytes are 0, R193), and a
free value is drawn. The status codes are those of section 12.6. -/
def Obligations.TaskCompleted : Prop :=
  (∀ (s : State) (k : SlotId) (st : TaskStatus), ∃ data : List Byte, data.length ≤ 124 ∧
    s.completeFree k st = (s.complete k st data).draw) ∧ codesOfStatus ∧
  ∀ (s : State) (k : SlotId) (st : TaskStatus) (data : List Byte), data.length ≤ 124 →
    let t := s.complete k st data
    let left := s.owner k = 0x0000 ∨ s.owner k = 0x5A03
    t = { s with slots := t.slots, mem := t.mem, attention := s.attention ||| 0b0001 } ∧
    (∀ j : SlotId, j ≠ k → t.slot j = s.slot j) ∧
    (t.slot k).mark = (if left then .host else .answered) ∧
    t.owner k = (if left then s.owner k else 0x5A03) ∧
    t.mem.word (0x1082 + 256 * k.val) = st.code ∧
    (∀ (i : Nat) (h : i < data.length), t.mem.read (0x1084 + 256 * k.val + i) = data[i]) ∧
    (∀ i : Nat, data.length ≤ i → i < 124 → t.mem.read (0x1084 + 256 * k.val + i) = 0) ∧
    ∀ a, a < Memory.size → ¬ (0x1000 + 256 * k.val ≤ a ∧ a < 0x1002 + 256 * k.val) →
      ¬ (0x1082 + 256 * k.val ≤ a ∧ a < 0x1100 + 256 * k.val) → t.mem.read a = s.mem.read a

/-- R183: taking a READY slot writes TAKEN, copies kind and payload into device hands and marks the slot HELD; a kind
that names no task ends it at once with BAD_KIND. (That the shorter watch queue causes no posting is log 27, the
model's reading.) -/
def Obligations.TaskTaken : Prop :=
  ∀ (s : State) (k : SlotId) (kind : Word16) (rest : List WatchId), s.taskAtHead k kind rest →
    let t := s.taken k rest
    t = { s with watch := rest, slots := t.slots, mem := t.mem } ∧
    (∀ j : SlotId, j ≠ k → t.slot j = s.slot j) ∧
    t.slot k = { mark := .held, kind := kind, payload := s.slotPayload k, cancelHanded := false } ∧
    t.owner k = 0x5A02 ∧ s.mem.sameOutside t.mem (0x1000 + 256 * k.val) 2 ∧
    (kind.toNat = 0 ∨ 0x14 < kind.toNat → exec .taskBadKind s = .next (t.complete k .badKind []))

/-- R156, R161, R188: after the tail of a step the permits follow and a STOPPING device in which all is idle is STOPPED;
PERMIT is set when the permit word changes; a changed permit word or blocker set posts the device block, and so does the
entry to STOPPED (each on its own, log 34); nothing else is touched, and a state with nothing left to do stays. (That
a posting made in STARTING is kept is log 47, the model's choice.) -/
def Obligations.TailOfStep : Prop :=
  ∀ s : State, let t := s.finish
    t.permitsCurrent = true ∧
    (s.device = .stopping ∧ s.atRest → t.device = .stopped) ∧
    (¬ (s.device = .stopping ∧ s.atRest) → t.device = s.device) ∧
    (t.permits.permitWord ≠ s.permits.permitWord → t.attention.getLsbD 1 = true) ∧
    (∀ i : Nat, s.attention.getLsbD i = true → t.attention.getLsbD i = true) ∧
    t = { s with device := t.device, permits := t.permits, attention := t.attention, mem := t.mem,
                 blockEdition := t.blockEdition, blockDirty := t.blockDirty } ∧
    t.permits.holds = s.permits.holds ∧ t.permits.groupEnable = s.permits.groupEnable ∧
    (∀ a, a < Memory.size → ¬ a < 128 → ¬ (0x0D00 ≤ a ∧ a < 0x0D90) → t.mem.read a = s.mem.read a) ∧
    (s.permitsCurrent = true → s.evaluatePermits = s) ∧
    (t.permits.permitWord ≠ s.permits.permitWord ∨ t.permits.blockers ≠ s.permits.blockers → ∃ u : State,
      s.evaluatePermits = u.postBlock ∧ u = { s with permits := t.permits, attention := u.attention }) ∧
    (s.device = .stopping → s.atRest → t = ({ s.evaluatePermits with device := .stopped } : State).postBlock) ∧
    (s.permitsCurrent = true → s.device ≠ .stopping → t = s) ∧
    (s.device ≠ .stopping → t = s.evaluatePermits) ∧
    s.evaluatePermits = { t with device := s.device, blockEdition := s.evaluatePermits.blockEdition,
                                 attention := s.evaluatePermits.attention, mem := s.evaluatePermits.mem,
                                 blockDirty := s.evaluatePermits.blockDirty }

/-- R46, R45, R43: a request joins the tail of its line's queue, and on a QUIET line the WAKE is sent and the device
block posted. On a STUCK line it is not queued: the work that calls for it fails at once with LINE_STUCK: the IDENTIFY
of a cycle that starts, the ADD_USAGE of a commit that starts, and the confirm read. -/
def Obligations.RequestPlaced : Prop :=
  (∀ (s : State) (l : LineId) (r : LineRequest), let x := s.line l
    (x.state ≠ .quiet → x.state ≠ .stuck → s.placeLine l r = s.setLine l { x with queue := x.queue ++ [r] }) ∧
    (x.state = .quiet → s.placeLine l r =
      (s.setLine l { x with queue := x.queue ++ [r], state := .calling, activity := .wake 0 false false,
                            pace := .none, inFlight := none }).postBlock)) ∧
  ∀ (s : State) (p : PosId), let x := s.pos p
    (s.line x.applied.line).state = .stuck →
    (x.seq = .idle → x.editionWaiting = false → s.device = .running → x.owed = true → s.choose p =
      (((s.setPos p
        { x with seq := .cycle, cycleNumber := x.cycleNumber + 1, owed := false,
                 timer := .running x.applied.interval, cycle := some (CycleContext.start x.inspectWaiting),
                 inspectWaiting := [] }).postHalf p).positionLine p (.failure .stuck 0)).choose p) ∧
    (x.seq = .idle → x.editionWaiting = false → s.device = .running → x.owed = false → x.boundUid ≠ none →
      x.unconfirmed = false → x.applied.threshold.toNat ≤ x.pendingUse.toNat ∨ x.commitWaiting ≠ [] → x.pendingUse ≠ 0 →
      s.choose p =
        ((s.setPos p
          { x with seq := .commit, inFlight := x.pendingUse, pendingUse := 0, commitWaiting := [],
                   commit := some { base := s.knownOf x, confirming := false, retries := 0,
                                    tasks := x.commitWaiting } }).postHalf p).positionLine p (.failure .stuck 0)) ∧
    ∀ c e n, x.seq = .commit → x.commit = some c → c.confirming = false →
      s.positionLine p (.failure e n) = (s.setPos p { x with
        lastLineError := some e
        commit := some { c with confirming := true, retries := c.retries + n } }).positionLine p (.failure .stuck 0)

/-- R8: the sequencer's choice, step by step. A cycle that starts (R53) raises the cycle number, restarts the timer,
posts the half and places IDENTIFY; a commit that starts (R101) moves pending to in-flight, notes K, posts the half and
places ADD_USAGE. The line is not STUCK in these two cases; there the request fails at once (R43). (The data of a
USAGE_COMMIT that ends with outcome NONE, beyond outcome and amount, are log 53, the model's reading.) -/
def Obligations.SequencerChoice : Prop :=
  ∀ (s : State) (p : PosId), let x := s.pos p
    let l := x.applied.line
    (x.seq ≠ .idle → s.choose p = s) ∧
    (x.seq = .idle → x.editionWaiting = true →
      let t := (s.setPos p { x with editionWaiting := false }).examineAndApply p
      (s.device ≠ .running → s.choose p = t) ∧ ((t.pos p).editionWaiting = false → s.choose p = t.choose p)) ∧
    (x.seq = .idle → x.editionWaiting = false → s.device ≠ .running → s.choose p = s) ∧
    (x.seq = .idle → x.editionWaiting = false → s.device = .running → x.owed = true → (s.line l).state ≠ .stuck →
      s.choose p =
        ((s.setPos p
          { x with seq := .cycle, cycleNumber := x.cycleNumber + 1, owed := false,
                   timer := .running x.applied.interval, cycle := some (CycleContext.start x.inspectWaiting),
                   inspectWaiting := [] }).postHalf p).placeLine l
          { requester := .position p, address := x.applied.address, command := .readBlocks 0 7 }) ∧
    (x.seq = .idle → x.editionWaiting = false → s.device = .running → x.owed = false →
      let due := x.boundUid ≠ none ∧ x.unconfirmed = false ∧
        (x.commitWaiting ≠ [] ∨ x.applied.threshold.toNat ≤ x.pendingUse.toNat)
      (¬ due → s.choose p = s) ∧
      (due → x.pendingUse = 0 → s.choose p =
        x.commitWaiting.foldl
          (fun t k => t.complete k .ok (commitData p x .none 0 0 0 (s.knownOf x)))
          (s.setPos p { x with commitWaiting := [] })) ∧
      (due → x.pendingUse ≠ 0 → (s.line l).state ≠ .stuck → s.choose p =
        ((s.setPos p
          { x with seq := .commit, inFlight := x.pendingUse, pendingUse := 0, commitWaiting := [],
                   commit := some { base := s.knownOf x, confirming := false, retries := 0,
                                    tasks := x.commitWaiting } }).postHalf p).placeLine l
          { requester := .position p, address := x.applied.address, command := .addUsage x.pendingUse }))

/-! ### Supply, reset and start-up -/

/-- R189: power-on, RESET_N low and power loss hold every block in its reset state: permits low, lines released,
excitation off, ATTENTION clear with every enable set; only the key slots survive, a slot being written as INVALID. The
reset values the manual does not give are log 10's, and that a part without power or held in reset shows every volatile
item at its reset value, STARTING and the memory cleared is log 25, the model's choice. Without a change of supply or
reset nothing happens (log 1). -/
def Obligations.SupplyHoldsReset : Prop :=
  ∀ s : State,
    let held (q : Power) (t : State) : Prop :=
      t.power = q ∧ t.pending = s.pending ∧ t.device = .starting ∧ (∀ a, t.mem.read a = 0) ∧
      (∀ g, t.permitOutput g = false) ∧ t.permits.holds = 0 ∧ t.permits.groupEnable = 0 ∧ t.attention = 0 ∧
      t.attentionEnable = 0b1111 ∧ t.attnN = true ∧
      (∀ l, (t.line l).sendingBits = [] ∧ (t.line l).queue = [] ∧ (t.line l).inFlight = none) ∧
      t.excitation = none ∧ t.meas = MeasUnit.reset ∧ t.watch = [] ∧ (∀ k, (t.slot k).mark = .host) ∧
      (∀ p, t.pos p = Position.reset) ∧ t.settings = Settings.reset ∧ t.identity = [] ∧ t.retired = [] ∧
      t.classes = [] ∧ t.rules = Vector.replicate 8 Rule.reset ∧ t.keys.queue = [] ∧ t.keys.writing = none ∧
      ∀ i : KeySlotId, t.keys.slots[i.val] =
        if s.keys.writing.map (fun w => w.target) = some i then .invalid else s.keys.slots[i.val]
    (s.power = .off → ∃ t, exec .powerOn s = .next t ∧ held .held t) ∧
    (s.power ≠ .off → exec .powerOn s = .next s) ∧
    (s.power ≠ .off → ∃ t, exec .resetNAssert s = .next t ∧ held .held t) ∧
    (s.power = .off → exec .resetNAssert s = .next s) ∧
    (s.power ≠ .off → ∃ t, exec .powerLoss s = .next t ∧ held .off t) ∧
    (s.power = .off → exec .powerLoss s = .next s)

/-- R189 steps 1 to 3, R50, R97, R157, R161: RESET_N high starts the part up in STARTING with everything cleared, each
line sending its WAKE, and the first accepted levels (the command's operands, log 2) taken; the key slots are kept.
Where RESET_N is not low nothing happens (log 1). (The fields of a disabled rule and of an absent configuration, the
lock state before the check and the other reset values the manual does not give are log 10, the model's choice.) -/
def Obligations.ResetReleaseStartsUp : Prop :=
  ∀ (s : State) (inhibitN : Bool) (cyc : BitVec 8),
    (s.power ≠ .held → exec (.resetNRelease inhibitN cyc) s = .next s) ∧
    (s.power = .held → ∃ t, exec (.resetNRelease inhibitN cyc) s = .next t ∧
      t.power = .on ∧ t.pending = s.pending ∧ t.device = .starting ∧ (∀ a, t.mem.read a = 0) ∧ t.watch = [] ∧
      (∀ k, (t.slot k).mark = .host) ∧
      (∀ l, (t.line l).state = .calling ∧ (t.line l).sendingBits = List.replicate 40 false ∧
        (t.line l).queue = [] ∧ (t.line l).inFlight = none ∧ (t.line l).heldBack = false ∧
        (t.line l).counts = LineCounts.reset) ∧
      t.meas = MeasUnit.reset ∧ (∀ p, t.pos p = Position.reset) ∧
      t.settings = { retryCount := 2, presenceLimit := 2000000, groupMask := 0, quiet := false } ∧
      t.settingsStatus = .none ∧ t.settingsExamined = 0 ∧ t.settingsApplied = 0 ∧ t.misuse = 0 ∧
      t.attention = 0 ∧ t.attentionEnable = 0b1111 ∧ t.inhibitN = inhibitN ∧ t.levels = cyc ∧
      t.pulses = Vector.replicate 8 0 ∧ (∀ g, t.permitOutput g = false) ∧ t.permits.holds = 0 ∧
      t.permits.groupEnable = 0 ∧
      (∀ g : GroupId, t.permits.blockers[g.val] = if inhibitN then 0b00101 else 0b00111) ∧
      t.identity = [] ∧ t.evictions = 0 ∧ t.retired = [] ∧ t.retiredDropped = 0 ∧ t.classes = [] ∧
      t.rules = Vector.replicate 8 Rule.reset ∧ t.ruleLoads = 0 ∧ t.keys = s.keys)

/-- R167, R166, R189 step 4, R158: the end of the start-up check marks damaged VALID slots INVALID and counts them,
sets lock state and attempts, and makes the device RUNNING with the permits evaluated, the device block posted and
STARTED set, FAULT too when a slot was damaged (which slots are damaged is the command's operand, log 12; that state,
key store and permits are posted in one posting is log 4, the model's reading). Out of STARTING nothing happens (log
1). -/
def Obligations.StartupCheckEnds : Prop :=
  ∀ (s : State) (damaged : BitVec 16),
    (¬ (s.power = .on ∧ s.device = .starting) → exec (.startupCheckEnd damaged) s = .next s) ∧
    (s.power = .on → s.device = .starting → ∃ t, exec (.startupCheckEnd damaged) s = .next t ∧
      t = { s with device := .running, clearing := false, keys := t.keys, permits := t.permits,
                   attention := t.attention, mem := t.mem, blockEdition := s.blockEdition + 2,
                   blockDirty := false } ∧
      (∀ i : KeySlotId, t.keys.slots[i.val] =
        if (s.keys.slots[i.val]).isValid = true ∧ damaged.getLsbD i.val = true then .invalid
        else s.keys.slots[i.val]) ∧
      t.keys.damaged = ((List.finRange 16).filter
        (fun i => (s.keys.slots[i.val]).isValid && damaged.getLsbD i.val)).length ∧
      t.keys.locked = (t.keys.slots[0]).isValid ∧ t.keys.attempts = 3 ∧ t.keys.queue = s.keys.queue ∧
      t.keys.writing = s.keys.writing ∧ t.permitsCurrent = true ∧ t.permits.holds = s.permits.holds ∧
      t.permits.groupEnable = s.permits.groupEnable ∧ t.attention.getLsbD 0 = true ∧ t.attention.getLsbD 3 = true ∧
      (t.attention.getLsbD 2 = true ↔ s.attention.getLsbD 2 = true ∨ t.keys.damaged ≠ 0) ∧
      ∀ a, hostByte a = true → t.mem.read a = s.mem.read a)

/-! ### Device commands and registers -/

/-- R188, R158, R9, R11: STOP in RUNNING turns every permit OFF, holds the timers and makes the state STOPPING, or
STOPPED when all is idle. RESUME in STOPPING or STOPPED makes the device RUNNING, restarts the timer of every enabled
position, evaluates the permits, posts the device block and lets every IDLE sequencer that has something to choose
choose (in an order left open, log 9). In every other state each is ignored. (That state and permits are posted in one
posting is log 4, the model's reading.) (That permits and posting come before the choices is log 54, the model's
choice.) -/
def Obligations.StopAndResume : Prop :=
  ∀ s : State, s.power = .on →
    (s.device ≠ .running → exec .stop s = .next s) ∧
    (s.device = .running → ∃ t, exec .stop s = .next t ∧
      (s.atRest → t.device = .stopped) ∧ (¬ s.atRest → t.device = .stopping) ∧
      t = { s with device := t.device, positions := t.positions, permits := t.permits, attention := t.attention,
                   mem := t.mem, blockEdition := t.blockEdition, blockDirty := false } ∧
      (∀ p, t.pos p = { s.pos p with
        timer := match (s.pos p).timer with | .running _ => .held | .held => .held | .stopped => .stopped }) ∧
      (∀ g, t.permitOutput g = false) ∧ t.permitsCurrent = true ∧ t.permits.holds = s.permits.holds ∧
      t.permits.groupEnable = s.permits.groupEnable ∧ t.attention.getLsbD 0 = true ∧
      ∀ a, hostByte a = true → t.mem.read a = s.mem.read a) ∧
    (s.device ≠ .stopping → s.device ≠ .stopped → exec .resume s = .next s) ∧
    (s.device = .stopping ∨ s.device = .stopped → ∃ (u : State) (order : List PosId),
      exec .resume s = .next ((order.foldl (fun t p => t.choose p) u).draw.finish) ∧
      u = { s with device := .running, positions := u.positions, permits := u.permits, attention := u.attention,
                   mem := u.mem, blockEdition := s.blockEdition + 2, blockDirty := false } ∧
      (∀ p, u.pos p = if (s.pos p).enabled then
        { s.pos p with timer := .running (s.pos p).applied.interval } else s.pos p) ∧
      u.permitsCurrent = true ∧ u.permits.holds = s.permits.holds ∧
      u.permits.groupEnable = s.permits.groupEnable ∧ u.attention.getLsbD 0 = true ∧
      (∀ a, hostByte a = true → u.mem.read a = s.mem.read a) ∧ order.Nodup ∧
      ∀ p, p ∈ order ↔ (s.pos p).seq = .idle ∧ ((s.pos p).editionWaiting = true ∨ (s.pos p).owed = true ∨
        ((s.pos p).boundUid ≠ none ∧ (s.pos p).unconfirmed = false ∧
          ((s.pos p).commitWaiting ≠ [] ∨ (s.pos p).applied.threshold.toNat ≤ (s.pos p).pendingUse.toNat))))

/-- R190, R18, R50, R88, R166: RESTART completes the HELD slots with RESTARTED, returns every block to its RESTART
values (that the clock ratio, the tag temperature and the last line error are among them is log 26, the model's
reading), posts every state half, refills the watch queue and ends RUNNING with STARTED set; the exchange memory's host
bytes, the retired list, the calibration records, the key slots and both registers are kept. In STARTING it is
ignored. (The fields of a disabled rule and of an absent configuration are log 10, and that a UID marked READ is
removed is log 18: the model's choices.) (That a slot marked ANSWERED keeps its mark, also where its word reads
CANCEL, is log 55, the model's choice.) -/
def Obligations.RestartCommand : Prop :=
  ∀ s : State, s.power = .on →
    (s.device = .starting → exec .restart s = .next s) ∧
    (s.device ≠ .starting → ∃ t, exec .restart s = .next t ∧ t.device = .running ∧ t.power = .on ∧
      t.pending = s.pending ∧ t.clearing = s.clearing ∧
      t.watch = [24] ++ (allPositions.filter (fun p => decide (s.mem.read (0x0102 + 128 * p.val) ≠ 0))).map watchOfPos ++
        (allSlots.filter (fun k => decide (t.owner k = 0x5A01 ∨ t.owner k = 0x5A04))).map watchOfSlot ∧
      (∀ k, (s.slot k).mark ≠ .held → t.slot k = s.slot k ∧ t.owner k = s.owner k) ∧
      (∀ k, (s.slot k).mark = .held → (t.slot k).mark ≠ .held ∧ (t.owner k = 0x0000 ∨ t.owner k = 0x5A03) ∧
        t.mem.word (0x1082 + 256 * k.val) = 3) ∧
      (∀ p, t.pos p = { Position.reset with edition := (s.pos p).edition + 2 }) ∧
      (∀ l, (t.line l).state = (s.line l).state ∧ (t.line l).queue = [] ∧ (t.line l).counts = LineCounts.reset ∧
        (t.line l).heldBack = false ∧ (t.line l).resetTasks = [] ∧
        (t.line l).inFlight = (s.line l).inFlight.map (fun x => { x with disposition := .withdrawn })) ∧
      t.meas.queue = [] ∧ t.meas.waiting = [] ∧ t.meas.measurements = 0 ∧ t.meas.saturated = 0 ∧
      t.meas.cal = s.meas.cal ∧ t.meas.state = s.meas.state ∧
      t.meas.inFlight = s.meas.inFlight.map (fun f => { f with disposition := .withdrawn }) ∧
      t.identity = [] ∧ t.evictions = 0 ∧ t.retired = s.retired ∧ t.retiredDropped = s.retiredDropped ∧
      t.classes = [] ∧ t.rules = Vector.replicate 8 Rule.reset ∧ t.ruleLoads = 0 ∧
      t.pulses = Vector.replicate 8 0 ∧ t.levels = s.levels ∧ t.inhibitN = s.inhibitN ∧
      t.settings = { retryCount := 2, presenceLimit := 2000000, groupMask := 0, quiet := false } ∧
      t.settingsStatus = .none ∧ t.settingsExamined = 0 ∧ t.settingsApplied = 0 ∧ t.misuse = 0 ∧
      t.keys.slots = s.keys.slots ∧ t.keys.locked = (s.keys.slots[0]).isValid ∧ t.keys.attempts = 3 ∧
      t.keys.queue = [] ∧ t.keys.damaged = s.keys.damaged ∧
      t.keys.writing = s.keys.writing.map (fun w => { w with task := none }) ∧
      t.permits.holds = 0 ∧ t.permits.groupEnable = 0 ∧ (∀ g, t.permitOutput g = false) ∧ t.permitsCurrent = true ∧
      t.attentionEnable = s.attentionEnable ∧ t.attention.getLsbD 0 = true ∧ t.attention.getLsbD 3 = true ∧
      (t.attention.getLsbD 2 = s.attention.getLsbD 2) ∧
      ∀ a, hostByte a = true → t.mem.read a = s.mem.read a)

/-- R180, R181: the register window. A 1 written to ATTENTION clears its reason, ATTENTION_ENABLE is written whole,
writes to IDENT and CONTROL values that name no command are ignored and the three codes are the commands; what each
register reads; ATTN_N is low exactly while a reason is both set and enabled. (REGISTER_WRITE_OTHER with a code acts as
that command, log 22.) -/
def Obligations.RegisterWindow : Prop :=
  ∀ (s : State) (v : Word16), s.power = .on →
    exec (.attentionWrite v) s = .next { s with attention := s.attention &&& ~~~(v.setWidth 4) } ∧
    exec (.attentionEnableWrite v) s = .next { s with attentionEnable := v.setWidth 4 } ∧
    exec (.registerWriteOther 0 v) s = .next s ∧
    (v ≠ 0x0001 → v ≠ 0x0002 → v ≠ 0x00A5 → exec (.registerWriteOther 1 v) s = .next s) ∧
    exec (.registerWriteOther 1 0x0001) s = exec .stop s ∧ exec (.registerWriteOther 1 0x0002) s = exec .resume s ∧
    exec (.registerWriteOther 1 0x00A5) s = exec .restart s ∧
    (s.readRegister 0).toNat / 256 = 0x24 ∧ (s.readRegister 1).toNat = s.device.code.toNat ∧
    (s.readRegister 2).toNat = s.attention.toNat ∧ (s.readRegister 3).toNat = s.attentionEnable.toNat ∧
    (s.attnN = false ↔ ∃ i : Nat, s.attention.getLsbD i = true ∧ s.attentionEnable.getLsbD i = true)

/-! ### Host writes -/

/-- R174, R175: a host write stores its word and nothing else; a write to a watched word also puts the word's index at
the tail of the watch queue unless it is there, whichever command brings it (HOST_WORD_WRITE to a watched word acts
as WATCHED_WORD_WRITE: log 22, the model's choice). While the start-up clear may run, the word may be stored or cleared
again and the index queued or not (R189 step 2; log 8). (That a new length of the watch queue causes no posting is log
27, the model's reading.) -/
def Obligations.HostWrites : Prop :=
  ∀ (s : State) (v : Word16), s.power = .on →
    (∀ word : BitVec 13, wfHostWord word = true → s.clearing = false → ∃ t,
      exec (.hostWordWrite word v) s = .next t ∧ t = { s with mem := t.mem } ∧ t.hostReadWord word = v ∧
      s.mem.sameOutside t.mem (2 * word.toNat) 2) ∧
    (∀ i : WatchId, s.clearing = false → ∃ t,
      exec (.watchedWordWrite i v) s = .next t ∧ t = { s with mem := t.mem, watch := t.watch } ∧
      t.watch = (if i ∈ s.watch then s.watch else s.watch ++ [i]) ∧ t.mem.word (watchedAddr i) = v ∧
      s.mem.sameOutside t.mem (watchedAddr i) 2) ∧
    (∀ i : WatchId, s.clearing = true → ∃ t,
      exec (.watchedWordWrite i v) s = .next t ∧
      t = { s with mem := t.mem, watch := t.watch, clearing := t.clearing, free := s.free + 1 } ∧
      (t.watch = s.watch ∨ t.watch = (if i ∈ s.watch then s.watch else s.watch ++ [i])) ∧
      (t.mem.word (watchedAddr i) = v ∨ t.mem.word (watchedAddr i) = 0) ∧ s.mem.sameOutside t.mem (watchedAddr i) 2) ∧
    (∀ word : BitVec 13, wfHostWord word = true → s.clearing = true → ∃ t,
      exec (.hostWordWrite word v) s = .next t ∧
      t = { s with mem := t.mem, clearing := t.clearing, free := s.free + 1 } ∧
      (t.hostReadWord word = v ∨ t.hostReadWord word = 0) ∧ s.mem.sameOutside t.mem (2 * word.toNat) 2) ∧
    ∀ (word : BitVec 13) (i : WatchId), 2 * word.toNat = watchedAddr i →
      exec (.hostWordWrite word v) s = exec (.watchedWordWrite i v) s

/-! ### Configuration and settings -/

/-- R1: what the examination makes of a configuration half, read as it stands with its edition: disabled; refused by the
first field that names no value; or accepted with interval and threshold brought into range and the accept classes as a
set, whatever the class table holds. A refused half is recorded with its reason, and one that passes every field goes on
to the conflict checks (shown here for a sequencer in OFF; the other cases are the next statements'). -/
def Obligations.ConfigHalfExamined : Prop :=
  (∀ (s : State) (p : PosId) (rest : List WatchId) (r : RefusalReason), s.entryAtHead (watchOfPos p) rest →
    (s.pos p).seq = .off →
    (examineHalf s.mem p = .refused r ∨ r = .addressInUse ∧ ∃ c clamped q, examineHalf s.mem p = .accepted c clamped ∧
      q ≠ p ∧ (s.pos q).enabled = true ∧ (s.pos q).applied.line = c.line ∧ (s.pos q).applied.address = c.address) →
    exec .configEditionTaken s = .next ((((s.withWatch rest).setPos p { s.pos p with
      configStatus := .refused, refusal := r, examined := s.mem.word (0x0100 + 128 * p.val) }).postHalf p).finish)) ∧
  ∀ (m : Memory) (p : PosId),
    let b := fun i => m.read (0x0100 + 128 * p.val + i)
    let w := fun i => m.word (0x0100 + 128 * p.val + i)
    let named (n : Nat) (v : Byte) : Prop := v.toNat < n ∨ v = 0xFF
    let numbersOk := named 24 (b 5) ∧ named 8 (b 6) ∧ named 8 (b 7) ∧ (b 8).toNat ≤ 1 ∧ (b 9).toNat ≤ 1
    (b 2 = 0 → examineHalf m p = .disabled) ∧
    (b 2 ≠ 0 → 1 < (b 3).toNat → examineHalf m p = .refused .badValue) ∧
    (b 2 ≠ 0 → (b 3).toNat ≤ 1 → (b 4).toNat = 0 ∨ 31 < (b 4).toNat → examineHalf m p = .refused .badAddress) ∧
    (b 2 ≠ 0 → (b 3).toNat ≤ 1 → 1 ≤ (b 4).toNat → (b 4).toNat ≤ 31 → ¬ numbersOk →
      examineHalf m p = .refused .badValue) ∧
    (b 2 ≠ 0 → (b 3).toNat ≤ 1 → 1 ≤ (b 4).toNat → (b 4).toNat ≤ 31 → numbersOk →
      ∃ c : PosConfig, examineHalf m p = .accepted c
          (decide ((w 0x0C).toNat < 5 ∨ 600 < (w 0x0C).toNat ∨ (w 0x0E).toNat = 0 ∨ 60000 < (w 0x0E).toNat)) ∧
        c.line = (if b 3 = 0 then .A else .B) ∧ c.address = b 4 ∧
        c.channel.map Fin.val = (if b 5 = 0xFF then none else some (b 5).toNat) ∧
        c.cycleInput.map Fin.val = (if b 6 = 0xFF then none else some (b 6).toNat) ∧
        c.group.map Fin.val = (if b 7 = 0xFF then none else some (b 7).toNat) ∧
        c.enforcement = (if b 8 = 0 then .observe else .enforce) ∧
        c.tempSource = (if b 9 = 0 then .tag else .hostValue) ∧
        c.allowExpired = decide (b 0x0A ≠ 0) ∧ c.vacancyAllows = decide (b 0x0B ≠ 0) ∧
        c.interval.toNat = max 5 (min 600 (w 0x0C).toNat) ∧ c.threshold.toNat = max 1 (min 60000 (w 0x0E).toNat) ∧
        c.grace = w 0x10 ∧
        (∀ v, v ∈ c.accept ↔ v ≠ 0 ∧ (v = w 0x14 ∨ v = w 0x16 ∨ v = w 0x18 ∨ v = w 0x1A)) ∧
        c.accept.Pairwise (fun u v => u.toNat < v.toNat))

/-- R13, R110, R111, R115, R120, R103, R145, R156: what the end of a binding does to the position and its record; the
permits are evaluated at once, with the position VACANT, and the tasks that wait for a commit then end REFUSED (that the
evaluation comes before these results is log 24); what leaving the contest sets does. Nothing else moves. (That a UID
marked READ is removed too, and that an unbound position takes the same values, is log 18.) (Unstated data: log 7.) -/
def Obligations.BindingEnds : Prop :=
  ∀ (s : State) (p : PosId), let t := s.endBinding p
    let bound := (s.pos p).boundUid ≠ none
    let y := { s.pos p with
      lost := (s.pos p).lost + (s.pos p).pendingUse.setWidth 32 + (s.pos p).inFlight.setWidth 32, pendingUse := 0,
      inFlight := 0, unconfirmed := false, verdict := .vacant, doubt := 0, clean := 0, grace := 0, missed := 0,
      uid := .none, classCode := 0, known := 0, wear := false, usageLimit := 0, commitWaiting := [] }
    let given := { s.setPos p y with
      blockDirty := if bound then true else s.blockDirty
      identity := if bound then
        s.identity.map (fun (r : IdentityRecord) =>
          if r.bound = some p then { r with bound := none, contest := [] } else r)
        else s.identity }
    t = (s.pos p).commitWaiting.foldl (fun v k => v.completeFree k .refused) given.evaluatePermits ∧
    t.pos p = y ∧ (∀ q, q ≠ p → t.pos q = s.pos q) ∧ t.identity = given.identity ∧
    t.frame = s.frame ∧ t.lineA = s.lineA ∧ t.lineB = s.lineB ∧ t.meas = s.meas ∧ t.retired = s.retired ∧
    t.permitsCurrent = true ∧
    ((s.pos p).commitWaiting = [] → t.slots = s.slots ∧ t = given.evaluatePermits) ∧
    (s.leaveContests p none) = { s with identity := s.identity.map (fun r =>
      { r with contest := r.contest.filter (fun q => decide (q ≠ p)) }) }

/-- R4, R2, R3, R5, R6: a config edition taken for a sequencer OFF or IDLE: refused, with everything else in force
untouched; disabled again; enabling; a change that keeps the binding; a departure. The half is posted; a sequencer that
is owed a cycle then chooses (R8; that no other change leads to a choice is log 23). Every half applied to an enabled
position ends the held-back mark of its old and its new line (log 28), and a departure acts on an unbound position too
(log 18): the model's readings. (That one posting of the half is made is log 4, that the line left looks at QUIET
last log 50, and before a STOPPING device becomes STOPPED log 40: the model's choices.) -/
def Obligations.ConfigEditionApplied : Prop :=
  ∀ (s : State) (p : PosId) (rest : List WatchId), s.entryAtHead (watchOfPos p) rest →
    let u := s.withWatch rest
    let x := s.pos p
    let e := s.mem.word (0x0100 + 128 * p.val)
    let after (v : State) : State := (if (v.pos p).owed then v.choose p else v).finish
    let refuse (r : RefusalReason) : State :=
      after ((u.setPos p { x with configStatus := .refused, refusal := r, examined := e }).postHalf p)
    let timer (c : PosConfig) : Timer :=
      if x.applied.interval = c.interval then x.timer
      else match x.timer with | .running _ => .running c.interval | .held => .held | .stopped => .stopped
    x.seq = .off ∨ x.seq = .idle →
    (examineHalf s.mem p = .disabled → x.enabled = false → exec .configEditionTaken s = .next (after
      ((u.setPos p { x with configStatus := .applied, refusal := .none, examined := e,
                            appliedEdition := e }).postHalf p))) ∧
    (∀ r, examineHalf s.mem p = .refused r → exec .configEditionTaken s = .next (refuse r)) ∧
    (∀ c cl, examineHalf s.mem p = .accepted c cl →
      let addressTaken := ∃ q, q ≠ p ∧ (s.pos q).enabled = true ∧ (s.pos q).applied.line = c.line ∧
        (s.pos q).applied.address = c.address
      let channelTaken := c.channel ≠ none ∧ ∃ q, q ≠ p ∧ (s.pos q).enabled = true ∧
        (s.pos q).applied.channel = c.channel
      let st := if cl then ConfigStatus.appliedClamped else .applied
      let same := x.applied.line = c.line ∧ x.applied.address = c.address ∧ x.applied.channel = c.channel ∧
        x.applied.accept = c.accept
      (addressTaken → exec .configEditionTaken s = .next (refuse .addressInUse)) ∧
      (¬ addressTaken → channelTaken → exec .configEditionTaken s = .next (refuse .channelInUse)) ∧
      (¬ addressTaken → ¬ channelTaken → x.enabled = false → exec .configEditionTaken s = .next (after
        ((((u.setPos p { Position.reset with
          enabled := true, applied := c, seq := .idle, owed := true, verdict := .vacant, edition := x.edition,
          pulseDirty := x.pulseDirty, configStatus := st, examined := e, appliedEdition := e }).clearHeldBack
          c.line).evaluatePermits).postHalf p))) ∧
      (¬ addressTaken → ¬ channelTaken → x.enabled = true → same → exec .configEditionTaken s = .next (after
        ((((u.setPos p { x with
          applied := c, timer := timer c, grace := if c.cycleInput = none then 0 else x.grace, configStatus := st,
          refusal := .none, examined := e, appliedEdition := e }).clearHeldBack
          c.line).evaluatePermits).postHalf p))) ∧
      (¬ addressTaken → ¬ channelTaken → x.enabled = true → ¬ same →
        let d := (u.endBinding p).leaveContests p none
        let v := ((((d.setPos p { d.pos p with
          owed := true, applied := c, timer := timer c, grace := 0, configStatus := st, refusal := .none, examined := e,
          appliedEdition := e }).clearHeldBack x.applied.line).clearHeldBack c.line).evaluatePermits).postHalf p
        exec .configEditionTaken s = .next (after
          (if x.applied.line ≠ c.line then v.examineQuiet x.applied.line else v))))

/-- R4, R7: a config edition taken while a cycle or commit runs waits for its end, unless the half disables the
position; disabling acts at once in every sequencer state, withdraws the work, gives the usage up, ends the binding and
leaves every other position as it is. R74, R76, R103, R44: after the posting of the half, the INSPECT tasks of the
running cycle end OK with the outcome ABORTED, those that wait end OK with no cycle run, the USAGE_COMMIT tasks, whether
or not their commit runs, end REFUSED, and the line that is left looks at the QUIET conditions. (That a UID marked READ
is removed too is log 18; that a task whose commit runs ends REFUSED is log 19, that an INSPECT shows the position as
posted log 21, and that the permits and the posting come before the results log 24: the model's readings. Unstated
data: log 7.) (That one posting of the half is made is log 4, that the line left looks at QUIET last log 50, and
before a STOPPING device becomes STOPPED log 40: the model's choices.) -/
def Obligations.ConfigEditionBusyOrDisabling : Prop :=
  ∀ (s : State) (p : PosId) (rest : List WatchId), s.entryAtHead (watchOfPos p) rest →
    let x := s.pos p
    let e := s.mem.word (0x0100 + 128 * p.val)
    let off := s.mem.read (0x0102 + 128 * p.val) = 0
    let bound := x.boundUid ≠ none
    (x.seq = .cycle ∨ x.seq = .commit → ¬ (off ∧ x.enabled = true) →
      exec .configEditionTaken s = .next (((s.withWatch rest).setPos p { x with editionWaiting := true }).finish)) ∧
    (off → x.enabled = true → ∃ t, exec .configEditionTaken s = .next t ∧
      t.pos p = { x with
        enabled := false, seq := .off, editionWaiting := false, owed := false, timer := .stopped, cycle := none,
        inspectWaiting := [], commit := none, commitWaiting := [], pendingUse := 0, inFlight := 0,
        unconfirmed := false, lost := x.lost + x.pendingUse.setWidth 32 + x.inFlight.setWidth 32,
        verdict := .disabled, wear := false, uid := .none, classCode := 0, known := 0,
        reason := if x.seq = .cycle then .aborted else x.reason, doubt := if bound then 0 else x.doubt,
        clean := if bound then 0 else x.clean, grace := if bound then 0 else x.grace,
        missed := if bound then 0 else x.missed, usageLimit := if bound then 0 else x.usageLimit,
        configStatus := .applied, refusal := .none, examined := e, appliedEdition := e, edition := x.edition + 2,
        pulseDirty := false } ∧
      (∀ q, q ≠ p → t.pos q = s.pos q) ∧ t.watch = rest ∧ t.retired = s.retired ∧ t.permitsCurrent = true ∧
      (bound → ∀ r ∈ t.identity, r.bound ≠ some p) ∧ (∀ r ∈ t.identity, p ∉ r.contest) ∧
      (∀ l, (t.line l).queue = (s.line l).queue.filter (fun r => decide (r.requester ≠ .position p))) ∧
      (∀ l, ∀ f, (t.line l).inFlight = some f → f.request.requester = .position p → f.disposition = .withdrawn) ∧
      t.meas.queue = s.meas.queue.filter (fun r => decide (r.position ≠ some p)) ∧
      (∀ f, t.meas.inFlight = some f → f.request.position = some p → f.disposition = .withdrawn) ∧
      (∀ a, hostByte a = true → t.mem.read a = s.mem.read a) ∧
      ∃ v : State,
        let y := t.pos p
        let running := (x.cycle.map (fun c => c.tasks)).getD []
        let committing := (x.commit.map (fun c => c.tasks)).getD []
        let shown (ran reason : Byte) : List Byte := [BitVec.ofNat 8 p.val, ran, 0, 0] ++ bytes32 y.cycleNumber ++
          bytes16 y.findings ++ [reason, 0] ++ bytes64 0 ++ bytes16 y.clockRatio ++ bytes32 y.deviation
        let inspected := x.inspectWaiting.foldl (fun w k => w.complete k .ok (shown 0 5))
          (running.foldl (fun w k => w.complete k .ok (shown 1 y.reason.code)) v)
        let ended := (committing ++ x.commitWaiting).foldl (fun w k => w.completeFree k .refused) inspected
        t = (ended.examineQuiet x.applied.line).finish ∧ v.pos p = y ∧ v.slots = s.slots ∧ v.free = s.free ∧
        v.permitsCurrent = true ∧ (∀ k, v.owner k = s.owner k) ∧
        v.mem.bytes (0x0140 + 128 * p.val) 64 = y.halfBytes)

/-- R179, R159, R44: the settings record is applied at once with its values brought into range; the permit unit's mask
follows, the permits are evaluated, and both lines lose their held-back mark; the device block is posted with the
settings, and each line looks at the QUIET conditions. (That the posting is one with that of the permits is log 4, the
model's reading.) (That it comes before the lines look at QUIET is log 50, and that they do so before a STOPPING
device becomes STOPPED log 40: the model's choices.) -/
def Obligations.SettingsApplied : Prop :=
  ∀ (s : State) (rest : List WatchId), s.entryAtHead 24 rest →
    let retry := s.mem.read 0x82
    let limit := s.mem.word32 0x84
    let mask := s.mem.read 0x88
    ∃ t v : State, exec .settingsEditionTaken s = .next t ∧
      t = ((v.postBlock.examineQuiet .A).examineQuiet .B).finish ∧
      v = { s with
        watch := rest, settings := t.settings, settingsStatus := t.settingsStatus,
        settingsExamined := t.settingsExamined, settingsApplied := t.settingsApplied, permits := v.permits,
        attention := v.attention, lineA := { s.lineA with heldBack := false },
        lineB := { s.lineB with heldBack := false } } ∧
      v.permits.groupEnable = mask ∧ v.permits.holds = s.permits.holds ∧ v.permitsCurrent = true ∧
      (v.permits.permitWord ≠ s.permits.permitWord → v.attention.getLsbD 1 = true) ∧
      (v.permits.permitWord = s.permits.permitWord → v.attention = s.attention) ∧
      t.settings = { retryCount := if 3 < retry.toNat then 3 else retry,
                     presenceLimit := if limit = 0 then 1 else if 4000000 < limit.toNat then 4000000 else limit,
                     groupMask := mask, quiet := decide (s.mem.read 0x89 ≠ 0) } ∧
      t.settingsStatus = (if 3 < retry.toNat ∨ limit = 0 ∨ 4000000 < limit.toNat then .appliedClamped else .applied) ∧
      t.settingsExamined = s.mem.word 0x80 ∧ t.settingsApplied = s.mem.word 0x80 ∧ t.permits.groupEnable = mask ∧
      t.permits.holds = s.permits.holds ∧ t.permitsCurrent = true ∧ t.watch = rest ∧ t.positions = s.positions ∧
      (∀ l, (t.line l).heldBack = false ∧ (t.line l).queue = (s.line l).queue ∧
        (t.line l).inFlight = (s.line l).inFlight ∧ (t.line l).counts = (s.line l).counts) ∧
      t.meas = s.meas ∧ t.identity = s.identity ∧ t.retired = s.retired ∧ t.slots = s.slots ∧ t.keys = s.keys ∧
      t.classes = s.classes ∧ t.rules = s.rules ∧ t.attention.getLsbD 0 = true ∧
      ∀ a, hostByte a = true → t.mem.read a = s.mem.read a

/-! ### Owner words -/

/-- R185: an owner word written out of turn. A HELD slot keeps its task and counts a misuse (saturating, and posted
when the count changes; that a saturated count causes no posting is log 34, the model's reading), TAKEN being written
over any value but FREE and DONE; any other slot is marked HOST. -/
def Obligations.OwnerWordMisuse : Prop :=
  ∀ (s : State) (k : SlotId) (rest : List WatchId), s.entryAtHead (watchOfSlot k) rest →
    let u := s.withWatch rest
    let w := s.owner k
    let count (v : State) : State :=
      if s.misuse = 0xFFFF then v else ({ v with misuse := s.misuse + 1 }).postBlock
    ((s.slot k).mark = .held → w ≠ 0x0000 → w ≠ 0x5A03 → w ≠ 0x5A04 →
      exec .ownerWordMisuse s = .next (count { u with mem := s.mem.writeWord (0x1000 + 256 * k.val) 0x5A02 })) ∧
    ((s.slot k).mark = .held → w = 0x0000 ∨ w = 0x5A03 → exec .ownerWordMisuse s = .next (count u)) ∧
    ((s.slot k).mark ≠ .held → w ≠ 0x5A01 → w ≠ 0x5A04 →
      exec .ownerWordMisuse s = .next (u.setSlot k { s.slot k with mark := .host }))

/-- R184, R29, R48, R75, R88, R85, R103, R168, R49: CANCEL by the slot's mark, and for a HELD slot by where its task
stands: TAG_READ and TAG_WRITE still queued, TAG_READ and TAG_WRITE in flight, INSPECT before its cycle and after it
has started, CALIBRATE on the waiting list, in the queue and in flight, USAGE_COMMIT before its commit and after it has
started, a key task still queued and one being served, LINE_RESET. A CANCEL already handed changes nothing. After a
CALIBRATE has left the queue the oldest waiting task moves up (R85; MeasurementSteps says how). (A slot marked HOST ends
CANCELLED with no data, log 20. Unstated data: log 7; that the queue lengths cause no posting: log 41.) (That a slot
ANSWERED before a RESTART is answered again with DONE and its old result is log 55, the model's choice.) -/
def Obligations.CancelBySlotMark : Prop :=
  ∀ (s : State) (k : SlotId) (rest : List WatchId), s.entryAtHead (watchOfSlot k) rest → s.owner k = 0x5A04 →
    let u := s.withWatch rest
    let kind := (s.slot k).kind
    let handed := u.setSlot k { s.slot k with cancelHanded := true }
    let queued := ∃ l, ∃ r ∈ (s.line l).queue, r.requester = .task k
    ((s.slot k).mark = .answered →
      exec .cancel s = .next ({ u with mem := s.mem.writeWord (0x1000 + 256 * k.val) 0x5A03 }).finish) ∧
    ((s.slot k).mark = .host → exec .cancel s = .next (u.complete k .cancelled []).finish) ∧
    ((s.slot k).mark = .held → (s.slot k).cancelHanded = true → exec .cancel s = .next u.finish) ∧
    ((s.slot k).mark = .held → (s.slot k).cancelHanded = false →
      (kind = 0x02 ∨ kind = 0x03 → queued →
        exec .cancel s = .next ((handed.withdrawLines (.task k)).completeFree k .cancelled).finish) ∧
      (kind = 0x02 → ¬ queued → ∃ t : State, exec .cancel s = .next t.finish ∧
        t = { handed with lineA := t.lineA, lineB := t.lineB } ∧
        ∀ l, t.line l = { s.line l with
          inFlight := (s.line l).inFlight.map
            (fun f => if f.request.requester = .task k ∧ f.disposition = .live then { f with disposition := .cancelled }
              else f) }) ∧
      (kind = 0x03 → ¬ queued → exec .cancel s = .next handed.finish) ∧
      (kind = 0x04 → exec .cancel s = .next handed.finish) ∧
      (kind = 0x01 → (∃ p, k ∈ (s.pos p).inspectWaiting) → ∃ t : State,
        exec .cancel s = .next ((t.completeFree k .cancelled).finish) ∧
        t = { handed with positions := t.positions } ∧
        ∀ p, t.pos p = { s.pos p with
          inspectWaiting := (s.pos p).inspectWaiting.filter (fun j => decide (j ≠ k)) }) ∧
      (kind = 0x01 → (∀ p, k ∉ (s.pos p).inspectWaiting) → exec .cancel s = .next handed.finish) ∧
      (kind = 0x07 → (∃ p, k ∈ (s.pos p).commitWaiting) → ∃ t : State,
        exec .cancel s = .next ((t.completeFree k .cancelled).finish) ∧
        t = { handed with positions := t.positions } ∧
        ∀ p, t.pos p = { s.pos p with
          commitWaiting := (s.pos p).commitWaiting.filter (fun j => decide (j ≠ k)) }) ∧
      (kind = 0x07 → (∀ p, k ∉ (s.pos p).commitWaiting) → exec .cancel s = .next handed.finish) ∧
      (kind = 0x06 →
        let mine (r : MeasRequest) : Prop := r.slot = some k
        let others (rs : List MeasRequest) : List MeasRequest := rs.filter (fun r => decide (r.slot ≠ some k))
        let left : State := { handed with meas := { s.meas with queue := others s.meas.queue } }
        ((∃ r ∈ s.meas.waiting, mine r) → exec .cancel s =
          .next (({ handed with meas := { s.meas with waiting := others s.meas.waiting } } : State).completeFree k
            .cancelled).finish) ∧
        ((∀ r ∈ s.meas.waiting, ¬ mine r) → (∃ r ∈ s.meas.queue, mine r) →
          exec .cancel s = .next ((left.completeFree k .cancelled).advanceCalibration).finish ∧
          (s.meas.waiting = [] → exec .cancel s = .next (left.completeFree k .cancelled).finish) ∧
          ∀ r more, s.meas.waiting = r :: more → (∀ q ∈ others s.meas.queue, q.slot = none) →
            (∀ f, s.meas.inFlight = some f → f.request.slot = none) →
            (∀ p, (s.pos p).enabled = true → (s.pos p).applied.channel ≠ some r.channel) →
            exec .cancel s = .next (({ left.completeFree k .cancelled with
              meas := { s.meas with queue := others s.meas.queue ++ [r], waiting := more } } : State)).finish) ∧
        ((∀ r ∈ s.meas.waiting, ¬ mine r) → (∀ r ∈ s.meas.queue, ¬ mine r) → exec .cancel s =
          .next ({ handed with meas := { s.meas with
            inFlight := s.meas.inFlight.map (fun f =>
              if f.request.slot = some k ∧ f.disposition = .live then { f with disposition := .cancelled }
              else f) } } : State).finish)) ∧
      (0x11 ≤ kind.toNat → kind.toNat ≤ 0x14 → (∀ t ∈ s.keys.queue, t.slot ≠ k) →
        exec .cancel s = .next handed.finish) ∧
      (0x11 ≤ kind.toNat → kind.toNat ≤ 0x14 → (∃ t ∈ s.keys.queue, t.slot = k) →
        exec .cancel s = .next
          (((({ handed with
            keys := { s.keys with
              queue := s.keys.queue.filter (fun t => decide (t.slot ≠ k)) } }).postBlock).completeFree k
            .cancelled).finish)))

/-! ### Tasks

Each statement gives the state after a task whose slot stands at the head of the watch queue, for every payload. -/

/-- R73, R16, R102: INSPECT and USAGE_COMMIT. A position outside 0..23 ends the task with BAD_ARGUMENT; a disabled one
ends it with REFUSED, and for USAGE_COMMIT so does one unbound or UNCONFIRMED. Otherwise the task is attached to the
position (INSPECT sets the owed flag, which is posted when it changes) and the sequencer chooses.
(Unstated data: log 7.) -/
def Obligations.PositionTasksAttach : Prop :=
  ∀ (s : State) (k : SlotId) (rest : List WatchId),
    let u := s.taken k rest
    let n := (byteAt (s.slotPayload k) 0).toNat
    (s.taskAtHead k 0x01 rest →
      (24 ≤ n → exec .inspect s = .next (u.completeFree k .badArgument).finish) ∧
      ∀ p : PosId, n = p.val →
        let x := s.pos p
        let v := u.setPos p { x with owed := true, inspectWaiting := x.inspectWaiting ++ [k] }
        (x.enabled = false → exec .inspect s = .next (u.completeFree k .refused).finish) ∧
        (x.enabled = true → x.owed = true → exec .inspect s = .next (v.choose p).finish) ∧
        (x.enabled = true → x.owed = false → exec .inspect s = .next ((v.postHalf p).choose p).finish)) ∧
    (s.taskAtHead k 0x07 rest →
      (24 ≤ n → exec .usageCommit s = .next (u.completeFree k .badArgument).finish) ∧
      ∀ p : PosId, n = p.val →
        let x := s.pos p
        let refused := x.enabled = false ∨ x.boundUid = none ∨ x.unconfirmed = true
        (refused → exec .usageCommit s = .next (u.completeFree k .refused).finish) ∧
        (¬ refused → exec .usageCommit s =
          .next (((u.setPos p { x with commitWaiting := x.commitWaiting ++ [k] }).choose p).finish)))

/-- R27, R28, R43: TAG_READ and TAG_WRITE. A bad line, address or count, a block of 0..6 or above 63 ends the task;
otherwise its request is placed, or fails at once with LINE_STUCK on a STUCK line (the tag status byte of that result
is free, log 32). (Unstated data: log 7.) (That a bad line or address comes before a block of 0..6 is log 48, the
model's choice.) -/
def Obligations.TagTasksPlaced : Prop :=
  ∀ (s : State) (k : SlotId) (rest : List WatchId),
    let u := s.taken k rest
    let b := s.slotPayload k
    let l : LineId := if byteAt b 0 = 0 then .A else .B
    let lineOk := (byteAt b 0).toNat ≤ 1
    let addressOk := 1 ≤ (byteAt b 1).toNat ∧ (byteAt b 1).toNat ≤ 31
    let countOk := 1 ≤ (byteAt b 3).toNat ∧ (byteAt b 3).toNat ≤ 8
    let place (c : LineCommand) : State := u.placeLine l { requester := .task k, address := byteAt b 1, command := c }
    (s.taskAtHead k 0x02 rest →
      (¬ (lineOk ∧ addressOk ∧ countOk) → exec .tagRead s = .next (u.completeFree k .badArgument).finish) ∧
      (lineOk → addressOk → countOk → (s.line l).state ≠ .stuck →
        exec .tagRead s = .next (place (.readBlocks (byteAt b 2) (byteAt b 3))).finish) ∧
      (lineOk → addressOk → countOk → (s.line l).state = .stuck → ∃ d : Byte,
        exec .tagRead s = .next ((u.complete k .lineStuck [d, 0, 0, 0, 0, 6]).draw.finish))) ∧
    (s.taskAtHead k 0x03 rest →
      (¬ (lineOk ∧ addressOk) → exec .tagWrite s = .next (u.completeFree k .badArgument).finish) ∧
      (lineOk → addressOk → (byteAt b 2).toNat ≤ 6 →
        exec .tagWrite s = .next (u.completeFree k .refused).finish) ∧
      (lineOk → addressOk → 63 < (byteAt b 2).toNat →
        exec .tagWrite s = .next (u.completeFree k .badArgument).finish) ∧
      (lineOk → addressOk → 6 < (byteAt b 2).toNat → (byteAt b 2).toNat ≤ 63 → (s.line l).state ≠ .stuck →
        exec .tagWrite s = .next (place (.writeBlock (byteAt b 2) (word32At b 4))).finish) ∧
      (lineOk → addressOk → 6 < (byteAt b 2).toNat → (byteAt b 2).toNat ≤ 63 → (s.line l).state = .stuck →
        ∃ d : Byte, exec .tagWrite s = .next ((u.complete k .lineStuck [d, 0, 0, 0, 0, 6]).draw.finish)))

/-- R49, R51, R27, R41, R48: LINE_RESET. A line that is neither A nor B ends it; on a STUCK line it ends at once;
otherwise the line's queue and transaction are taken out (before any of them fails, so that a request a failure brings
stands behind the WAKE: log 15) and fail with LINE_RESET in order, a WAKE is sent unless one is under way, and the task
waits for its rest. A failed task ends LINE_RESET with the error and the retries (its tag status byte is free, log 32),
a failed position takes the failure and chooses, a withdrawn transaction is discarded and a cancelled one ends
CANCELLED. (That the result counts a transaction that was only discarded is log 39, and that line and counts change
before the failures are handed log 43. Unstated data: log 7.) With nothing to fail, nothing else changes. (That the
block is due for its posting also where the transactions count stands at 65 535 is log 34, the model's reading.)
(That a LINE_RESET which ends BAD_ARGUMENT posts nothing is log 51, the model's choice.) -/
def Obligations.LineResetTask : Prop :=
  failsInOrder .reset .lineReset 7 ∧
  ∀ (s : State) (k : SlotId) (rest : List WatchId), s.taskAtHead k 0x04 rest →
    let u := s.taken k rest
    let b := byteAt (s.slotPayload k) 0
    let l : LineId := if b = 0 then .A else .B
    let x := s.line l
    let counts := if x.inFlight.isSome then
      { x.counts with transactions := satInc x.counts.transactions } else x.counts
    let waiting := x.resetTasks ++
      [{ slot := k, found := x.state, failed := x.inFlight.isSome, queued := x.queue.length }]
    let cleared : LineCtl :=
      if x.waking then { x with queue := [], inFlight := none, counts := counts, resetTasks := waiting }
      else { x with queue := [], inFlight := none, counts := counts, resetTasks := waiting, state := .calling,
                    activity := .wake 0 false false, pace := .none }
    let v := (if x.inFlight.isSome then (u.setLine l cleared).touchBlock else u.setLine l cleared).failAll
      x.inFlight x.queue .reset
    (1 < b.toNat → exec .lineReset s = .next (u.completeFree k .badArgument).finish) ∧
    (b.toNat ≤ 1 → x.state = .stuck → exec .lineReset s = .next ((u.postBlock).complete k .ok [6, 0, 0]).finish) ∧
    (b.toNat ≤ 1 → x.state ≠ .stuck →
      exec .lineReset s = .next (if x.state = .quiet then v.postBlock else v).finish) ∧
    (x.inFlight = none → x.queue = [] → v = u.setLine l cleared)

/-- R84: CAL_LOAD. A channel outside 0..23 ends it; otherwise offset and gain, each brought into its range, are the
channel's record at once, with CLAMPED when one was clamped; the slot is DONE in the same step. (That the changed record
causes no posting of its own is log 27, the model's reading; the data of BAD_ARGUMENT are free, log 7.) -/
def Obligations.CalLoadClamps : Prop :=
  ∀ (s : State) (k : SlotId) (rest : List WatchId), s.taskAtHead k 0x05 rest →
    let u := s.taken k rest
    let b := s.slotPayload k
    let n := (byteAt b 0).toNat
    let o := (word16At b 2).toInt
    let g := (word32At b 4).toNat
    (∀ t, exec .calLoad s = .next t → t.owner k = 0x5A03 ∧ (t.slot k).mark = .answered) ∧
    (24 ≤ n → exec .calLoad s = .next (u.completeFree k .badArgument)) ∧
    ∀ c : ChannelId, n = c.val → ∃ r : CalRecord,
      r.offset.toInt = max (-2048) (min 2047 o) ∧ r.gain.toNat = max 1 (min 16777215 g) ∧
      exec .calLoad s = .next
        (({ u with meas := { u.meas with cal := u.meas.cal.set c.val r } }).complete k
          (if r.offset.toInt = o ∧ r.gain.toNat = g then .ok else .clamped)
          ([byteAt b 0, 0] ++ bytes16 r.offset ++ bytes32 r.gain))

/-- R85: CALIBRATE. A bad channel, kind or reference ends it, and so does a channel in use; otherwise its request joins
the measurement queue, or the waiting list behind another CALIBRATE. In every case the task is taken and the command
completes. (That a bad kind or reference comes before IN_USE is log 45, that the waiting list takes an eighth task log
46, and that the new queue length causes no posting log 41: the model's choices. Unstated data: log 7.) -/
def Obligations.CalibrateQueued : Prop :=
  ∀ (s : State) (k : SlotId) (rest : List WatchId), s.taskAtHead k 0x06 rest →
    let u := s.taken k rest
    let b := s.slotPayload k
    let n := (byteAt b 0).toNat
    let ref := word32At b 4
    let kind : CalKind := if byteAt b 1 = 0 then .offset else .gain
    let valid := n < 24 ∧ (byteAt b 1).toNat ≤ 1 ∧ (kind = .gain → 1 ≤ ref.toNat ∧ ref.toNat ≤ 4000000)
    let isCal (r : MeasRequest) : Prop := ∃ c j kd v, r = { channel := c, kind := .calibrate j kd v }
    let another := (∃ r ∈ s.meas.queue, isCal r) ∨ ∃ f, s.meas.inFlight = some f ∧ isCal f.request
    (¬ valid → exec .calibrate s = .next (u.completeFree k .badArgument)) ∧
    ∀ c : ChannelId, n = c.val → valid →
      let r : MeasRequest := { channel := c, kind := .calibrate k kind ref }
      let inUse := ∃ p, (s.pos p).enabled = true ∧ (s.pos p).applied.channel = some c
      (inUse → exec .calibrate s = .next (u.completeFree k .inUse)) ∧
      (¬ inUse → ¬ another → exec .calibrate s =
        .next { u with meas := { u.meas with queue := u.meas.queue ++ [r] } }) ∧
      (¬ inUse → another → exec .calibrate s =
        .next { u with meas := { u.meas with waiting := u.meas.waiting ++ [r] } })

/-- R125, R126, R187: RETIRED_IMPORT checks count and range and takes the UIDs of its list in order: it skips a malformed
UID and one on the list as it then stands, and appends any other, for which a full list drops its oldest unprotected
entry. The result carries the six counts; an import that adds an entry posts the device block, whatever the list comes
to (R121). RETIRED_EXPORT checks the range and writes the count, the retired-dropped count and the UIDs, and no other
byte of the bulk area. (Unstated data: log 7.) -/
def Obligations.RetiredListMoved : Prop :=
  (∀ (v : State) (c : ImportCounts) (u : Word64),
    let fresh := uidWellFormed u = true ∧ u ∉ v.retired
    let guarded (w : Word64) : Prop := ∃ p, (v.pos p).verdict = .barred ∧ (v.pos p).boundUid = some w
    (uidWellFormed u = false → importUid (v, c) u = (v, { c with malformed := c.malformed + 1 })) ∧
    (uidWellFormed u = true → u ∈ v.retired → importUid (v, c) u = (v, { c with duplicates := c.duplicates + 1 })) ∧
    (fresh → v.retired.length < 128 →
      importUid (v, c) u = ({ v with retired := v.retired ++ [u] }, { c with added := c.added + 1 })) ∧
    ∀ before old young, fresh → 128 ≤ v.retired.length → v.retired = before ++ old :: young → ¬ guarded old →
      (∀ w ∈ before, guarded w) →
      importUid (v, c) u =
        ({ v with retired := before ++ young ++ [u], retiredDropped := satInc v.retiredDropped },
          { c with added := c.added + 1, dropped := c.dropped + 1 })) ∧
  ∀ (s : State) (k : SlotId) (rest : List WatchId),
    let u := s.taken k rest
    let offset := (word16At (s.slotPayload k) 0).toNat
    let count := (word16At (s.slotPayload k) 2).toNat
    let inBulk (n : Nat) := offset % 2 = 0 ∧ 0x2000 ≤ offset ∧ offset + n ≤ 0x4000
    let uids := u.mem.uids offset count
    let words (a b c d e f : Nat) : List Byte := [a, b, c, d, e, f].flatMap (leBytes 2)
    let len := s.retired.length
    (s.taskAtHead k 0x08 rest →
      (count = 0 ∨ 128 < count → exec .retiredImport s = .next (u.completeFree k .badArgument)) ∧
      (1 ≤ count → count ≤ 128 → ¬ inBulk (8 * count) →
        exec .retiredImport s = .next (u.completeFree k .badRange)) ∧
      (1 ≤ count → count ≤ 128 → inBulk (8 * count) →
        (let r := uids.foldl importUid (u, ⟨0, 0, 0, 0⟩)
         exec .retiredImport s = .next ((if r.2.added = 0 then r.1 else r.1.postBlock).complete k .ok
           (words count r.2.added r.2.duplicates r.2.malformed r.2.dropped r.1.retired.length)) ∧
         r.1 = { u with retired := r.1.retired, retiredDropped := r.1.retiredDropped } ∧
         r.2.added + r.2.duplicates + r.2.malformed = count) ∧
        ((∃ v ∈ uids, uidWellFormed v = true ∧ v ∉ s.retired) → ∃ (w : State) (data : List Byte),
          exec .retiredImport s = .next ((w.postBlock).complete k .ok data) ∧
          w = { u with retired := w.retired, retiredDropped := w.retiredDropped }) ∧
        ((∀ v ∈ uids, uidWellFormed v = true ∧ v ∉ s.retired) → uids.Nodup → len + count ≤ 128 →
          exec .retiredImport s = .next ((({ u with retired := s.retired ++ uids }).postBlock).complete k .ok
            (words count count 0 0 0 (len + count)))) ∧
        ((∀ v ∈ uids, uidWellFormed v = false) →
          exec .retiredImport s = .next (u.complete k .ok (words count 0 0 count 0 len))) ∧
        ((∀ v ∈ uids, uidWellFormed v = true ∧ v ∈ s.retired) →
          exec .retiredImport s = .next (u.complete k .ok (words count 0 count 0 0 len))) ∧
        (∀ v old young, uids = [v] → uidWellFormed v = true → v ∉ s.retired → s.retired = old :: young → len = 128 →
          (∀ p, (s.pos p).verdict ≠ .barred) →
          exec .retiredImport s = .next ((({ u with
            retired := young ++ [v], retiredDropped := satInc s.retiredDropped }).postBlock).complete k .ok
            (words count 1 0 0 1 128))))) ∧
    (s.taskAtHead k 0x09 rest →
      (¬ inBulk (4 + 8 * len) → exec .retiredExport s = .next (u.completeFree k .badRange)) ∧
      (inBulk (4 + 8 * len) → ∃ m : Memory,
        exec .retiredExport s = .next (({ u with mem := m }).complete k .ok
          (leBytes 2 len ++ bytes16 s.retiredDropped ++ [BitVec.ofNat 8 s.protectedCount])) ∧
        m.bytes offset (4 + 8 * len) = leBytes 2 len ++ bytes16 s.retiredDropped ++ s.retired.flatMap bytes64 ∧
        u.mem.sameOutside m offset (4 + 8 * len)))

/-- R146, R127, R124: RELEASE of a BARRED position and RETIRED_REMOVE of a UID: the checks, the UID off the list, and
where a position held it BARRED the reject count 0, ARRIVING with grace refilled and the owed flag set, the half and
the block posted, and the sequencer's choice after the result (that it comes in the same step is log 38, the model's
reading). R147: where a RELEASE of the position stands at the head of the watch queue when a cycle of it finds RETIRED,
the position is BARRED after the hand-off with its UID on the list; either the RELEASE still waits, or it has ended OK
and the UID stands at the end of the list with the reject count 0 and the owed flag set (which of the two is free, log
42). (Unstated data: log 7.) (That it is taken after all the checks, with the cycle in CHECKS, is log 42 too.) -/
def Obligations.BarredReleased : Prop :=
  ∀ (s : State) (k : SlotId) (rest : List WatchId),
    let u := s.taken k rest
    let list (w : Word64) := s.retired.filter (fun v => decide (v ≠ w))
    let released (p : PosId) (w : Word64) : State :=
      (({ u with
        retired := list w
        identity := s.identity.map (fun (r : IdentityRecord) => if r.uid = w then { r with rejects := 0 } else r) }).setPos p
        { s.pos p with
          verdict := .arriving, doubt := 0, clean := 0, owed := true,
          grace := if (s.pos p).applied.cycleInput = none then 0 else (s.pos p).applied.grace }).evaluatePermits.postHalf p
    (s.taskAtHead k 0x0B rest →
      let n := (byteAt (s.slotPayload k) 0).toNat
      (24 ≤ n → exec .release s = .next (u.completeFree k .badArgument).finish) ∧
      ∀ p : PosId, n = p.val →
        ((s.pos p).verdict ≠ .barred → exec .release s = .next (u.completeFree k .refused).finish) ∧
        ∀ w r, (s.pos p).verdict = .barred → (s.pos p).boundUid = some w → s.record w = some r → w ∈ s.retired →
          exec .release s = .next ((((released p w).postBlock).complete k .ok
            ([BitVec.ofNat 8 p.val, BitVec.ofNat 8 r.rejects] ++ bytes64 w)).choose p).finish) ∧
    (s.taskAtHead k 0x0A rest →
      let w := word64At (s.slotPayload k) 0
      let held (p : PosId) : Prop := (s.pos p).verdict = .barred ∧ (s.pos p).boundUid = some w
      (uidWellFormed w = false → exec .retiredRemove s = .next (u.completeFree k .badArgument).finish) ∧
      (uidWellFormed w = true → w ∉ s.retired → exec .retiredRemove s = .next (u.completeFree k .noSuch).finish) ∧
      (uidWellFormed w = true → w ∈ s.retired → (∀ p, ¬ held p) → exec .retiredRemove s =
        .next ((({ u with retired := list w }).postBlock).complete k .ok (bytes64 w ++ [0, 0xFF])).finish) ∧
      (∀ p, uidWellFormed w = true → w ∈ s.retired → held p → (∀ q, held q → q = p) → exec .retiredRemove s =
        .next ((((released p w).postBlock).complete k .ok (bytes64 w ++ [1, BitVec.ofNat 8 p.val])).choose p).finish)) ∧
    ∀ (p : PosId) (c : CycleContext) (w : Word64) (r : IdentityRecord), s.taskAtHead k 0x0B rest →
      (byteAt (s.slotPayload k) 0).toNat = p.val → (s.pos p).cycle = some c → formatFindings c = 0 →
      tagUid c.blocks = w → k ∉ c.tasks → (s.pos p).verdict = .barred → (s.pos p).boundUid = some w →
      s.record w = some r → r.bound = some p → w ∈ s.retired → s.retired.length ≤ 128 →
      let t := s.checks p
      (t.pos p).verdict = .barred ∧ (t.pos p).seq = .idle ∧ (t.pos p).findings.getLsbD 2 = true ∧ w ∈ t.retired ∧
      ((t.watch = s.watch ∧ t.retired = s.retired) ∨
        (t.watch = rest ∧ t.owner k = 0x5A03 ∧ t.mem.word (0x1082 + 256 * k.val) = 0 ∧ t.retired = list w ++ [w] ∧
          (t.record w).map (fun r => r.rejects) = some 0 ∧ (t.pos p).owed = true))

/-- R151: RULES_LOAD. The first entry that fails ends it with the entry and the field named and the rules unchanged;
otherwise the eight entries replace the rule set and the load count rises. (The other data of a failed load are free,
log 7; the fields that a disabled entry holds are log 10, and the 0xFF of a load that names no failure log 33: the
model's choices.) -/
def Obligations.RulesLoaded : Prop :=
  ∀ (s : State) (k : SlotId) (rest : List WatchId), s.taskAtHead k 0x0C rest →
    let u := s.taken k rest
    let b := s.slotPayload k
    (∀ i f, i < 8 → ruleFault b i = some f → (∀ j, j < i → ruleFault b j = none) → ∃ data : List Byte,
      exec .rulesLoad s = .next ((u.complete k .badArgument (data ++ [BitVec.ofNat 8 i, f])).draw) ∧
      data.length = 4) ∧
    ((∀ i, i < 8 → ruleFault b i = none) → ∃ rules : Vector Rule 8,
      exec .rulesLoad s = .next ((({ u with rules := rules, ruleLoads := s.ruleLoads + 1 }).postBlock).complete k .ok
        ([BitVec.ofNat 8 ((List.range 8).filter (fun i => decide (byteAt b (14 * i) ≠ 0))).length, 0] ++
          bytes16 (s.ruleLoads + 1) ++ [0xFF, 0xFF])) ∧
      ∀ i : Fin 8, let r := rules[i.val]
        let at_ (o : Nat) : Byte := byteAt b (14 * i.val + o)
        (at_ 0 = 0 → r = Rule.reset) ∧
        (at_ 0 ≠ 0 → r.enabled = true ∧ r.group.val = (at_ 1).toNat ∧ quantityOfCode (at_ 2) = some r.quantity ∧
          senseOfCode (at_ 3) = some r.sense ∧ r.classCode = word16At b (14 * i.val + 4) ∧
          r.lo = word32At b (14 * i.val + 6) ∧ r.hi = word32At b (14 * i.val + 10)))

/-- R160: PERMIT_HOLD and PERMIT_FREE. A mask above 255 ends the task with no latch changed; otherwise the latches named
are set or cleared, the permits follow, the device block is posted and the result carries latches and permit word.
(That the posting is one with that of the permits is log 4, the model's reading. Unstated data: log 7.) -/
def Obligations.HoldsSetAndFreed : Prop :=
  ∀ (s : State) (k : SlotId) (rest : List WatchId),
    let u := s.taken k rest
    let mask := word16At (s.slotPayload k) 0
    let held (c : Instr) (holds : Byte) : Prop := ∃ v : State,
      exec c s = .next (v.complete k .ok [holds, v.permits.permitWord]) ∧ v.permits.holds = holds ∧
      v.permits.groupEnable = s.permits.groupEnable ∧ v.permitsCurrent = true ∧
      v = { u with permits := v.permits, attention := v.attention, mem := v.mem,
                   blockEdition := s.blockEdition + 2, blockDirty := false } ∧
      v.attention.getLsbD 0 = true ∧
      (v.permits.permitWord ≠ s.permits.permitWord → v.attention.getLsbD 1 = true) ∧
      ∀ a, hostByte a = true → v.mem.read a = s.mem.read a
    (s.taskAtHead k 0x0D rest →
      (255 < mask.toNat → exec .permitHold s = .next (u.completeFree k .badArgument)) ∧
      (mask.toNat ≤ 255 → held .permitHold (s.permits.holds ||| mask.setWidth 8))) ∧
    (s.taskAtHead k 0x0E rest →
      (255 < mask.toNat → exec .permitFree s = .next (u.completeFree k .badArgument)) ∧
      (mask.toNat ≤ 255 → held .permitFree (s.permits.holds &&& ~~~(mask.setWidth 8))))

/-- R162, R163: CLASS_LOAD. The first structural field that fails ends it and is named; a new code does not enter a
table of 16 records; otherwise the record, each numeric field brought into its range, replaces the one of its code or
is added, with CLAMPED when a field was clamped. The result carries whether a record was replaced and the number of
records afterwards, of TABLE_FULL too. (The other data of a failed load are free, log 7; the failed field 0xFF of a
load that names none is log 33, and the posting for a record equal to the one it replaces log 34: the model's
readings.) -/
def Obligations.ClassLoaded : Prop :=
  ∀ (s : State) (k : SlotId) (rest : List WatchId), s.taskAtHead k 0x0F rest →
    let u := s.taken k rest
    let b := s.slotPayload k
    let code := word16At b 0
    let known := ∃ d ∈ s.classes, d.code = code
    (∀ f, classFault b = some f → ∃ data : List Byte, data.length = 22 ∧
      exec .classLoad s = .next ((u.complete k .badArgument (data ++ [f])).draw)) ∧
    (classFault b = none → ¬ known → 16 ≤ s.classes.length → ∃ data : List Byte, data.length = 20 ∧
      exec .classLoad s = .next
        ((u.complete k .tableFull (data ++ [0, BitVec.ofNat 8 s.classes.length, 0xFF])).draw)) ∧
    (classFault b = none → known ∨ s.classes.length < 16 → ∃ (c : ClassRecord) (st : TaskStatus),
      let table := if s.classes.any (fun d => decide (d.code = code)) then
        s.classes.map (fun d => if d.code = code then c else d) else s.classes ++ [c]
      exec .classLoad s = .next ((({ u with classes := table }).postBlock).complete k st
        (c.bytes ++ [flagByte (s.classes.any (fun d => decide (d.code = code))), BitVec.ofNat 8 table.length, 0xFF])) ∧
      c.code = code ∧ c.keySlot.val = (byteAt b 2).toNat ∧ modeOfCode (byteAt b 3) = some c.mode ∧
      c.tau.toNat = max 1000 (min 200000 (word32At b 4).toNat) ∧
      c.alpha.toNat = min 6000 (word16At b 8).toNat ∧
      c.beta.toInt = max (-2000) (min 2000 (word16At b 10).toInt) ∧
      c.bandLo.toNat = max 7500 (min 12500 (word16At b 12).toNat) ∧
      c.bandHi.toNat = max 7500 (min 12500 (word16At b 14).toNat) ∧
      c.trip.toNat = max 1 (min 8 (byteAt b 16).toNat) ∧ c.recover.toNat = min 16 (byteAt b 17).toNat ∧
      c.forgive.toNat = max 1 (byteAt b 18).toNat ∧ c.latch.toNat = max 1 (min 15 (byteAt b 19).toNat) ∧
      (st = .ok ∨ st = .clamped) ∧
      (st = .ok ↔ c.tau = word32At b 4 ∧ c.alpha = word16At b 8 ∧ c.beta = word16At b 10 ∧ c.bandLo = word16At b 12 ∧
        c.bandHi = word16At b 14 ∧ c.trip = byteAt b 16 ∧ c.recover = byteAt b 17 ∧ c.forgive = byteAt b 18 ∧
        c.latch = byteAt b 19))

/-- R164: CLASS_DROP. A code of 0 ends it with BAD_ARGUMENT, a code without a record with NO_SUCH; otherwise the record
is removed, the table's change is posted (R163) and nothing else moves; the slot is DONE in the same step. (The data of
the two refused cases are free, log 7.) -/
def Obligations.ClassDropped : Prop :=
  ∀ (s : State) (k : SlotId) (rest : List WatchId), s.taskAtHead k 0x10 rest →
    let u := s.taken k rest
    let code := word16At (s.slotPayload k) 0
    let left := s.classes.filter (fun c => decide (c.code ≠ code))
    (∀ t, exec .classDrop s = .next t → t.owner k = 0x5A03 ∧ (t.slot k).mark = .answered) ∧
    (code = 0 → exec .classDrop s = .next (u.completeFree k .badArgument)) ∧
    (code ≠ 0 → (∀ c ∈ s.classes, c.code ≠ code) → exec .classDrop s = .next (u.completeFree k .noSuch)) ∧
    (code ≠ 0 → (∃ c ∈ s.classes, c.code = code) → exec .classDrop s =
      .next ((({ u with classes := left }).postBlock).complete k .ok (bytes16 code ++ [BitVec.ofNat 8 left.length])))

/-- R168, R169, R171, R172, R166: a key task that is taken joins the tail of the key task queue, which is posted; a slot
outside 0..15 ends KEY_LOAD and KEY_ERASE. (Unstated data: log 7.) -/
def Obligations.KeyTasksQueued : Prop :=
  ∀ (s : State) (k : SlotId) (rest : List WatchId),
    let u := s.taken k rest
    let b := s.slotPayload k
    let n := (byteAt b 0).toNat
    let queued (op : KeyOp) : State :=
      ({ u with keys := { s.keys with queue := s.keys.queue ++ [({ slot := k, op := op } : KeyTask)] } }).postBlock
    (s.taskAtHead k 0x11 rest → (16 ≤ n → exec .keyLoad s = .next (u.completeFree k .badArgument)) ∧
      ∀ i : KeySlotId, n = i.val → exec .keyLoad s = .next (queued (.load i (keyAt b 2)))) ∧
    (s.taskAtHead k 0x12 rest → (16 ≤ n → exec .keyErase s = .next (u.completeFree k .badArgument)) ∧
      ∀ i : KeySlotId, n = i.val → exec .keyErase s = .next (queued (.erase i))) ∧
    (s.taskAtHead k 0x13 rest → exec .keysUnlock s = .next (queued (.unlock (keyAt b 0)))) ∧
    (s.taskAtHead k 0x14 rest → exec .keysLock s = .next (queued .lock))

/-- R169, R170, R171, R172: the key store serves the task at the head of its queue while no write is in progress:
unlocking by slot 0 and the attempts left, locking, beginning a write with its slot INVALID, erasing; a LOCKED store
ends the last two. The write ends with its slot VALID under the new key, and its task, unless RESTART ended it, ends
OK. (That an OK KEY_ERASE carries slot and state is Table 6 of Formats, log 33.) (Unstated data: log 7.) -/
def Obligations.KeyTaskServed : Prop :=
  (∀ (s : State) (w : KeyWrite), s.power = .on → s.keys.writing = some w →
    let u := ({ s with keys := { s.keys with
      slots := s.keys.slots.set w.target.val (.valid w.key), writing := none } }).postBlock
    (w.task = none → exec .keyWriteEnd s = .next u) ∧
    ∀ k, w.task = some k → exec .keyWriteEnd s = .next (u.complete k .ok [BitVec.ofNat 8 w.target.val, 1])) ∧
  ∀ (s : State) (k : SlotId) (op : KeyOp) (rest : List KeyTask), s.power = .on → s.keys.writing = none →
    s.keys.queue = { slot := k, op := op } :: rest →
    let q : KeyStore := { s.keys with queue := rest }
    let done (key : KeyStore) (st : TaskStatus) (data : List Byte) : Prop :=
      exec .keyTaskServe s = .next ((({ s with keys := key }).postBlock).complete k st data)
    (∀ v, op = .unlock v →
      (¬ (s.keys.slots[0]).isValid = true →
        done q .refused [flagByte s.keys.locked, BitVec.ofNat 8 s.keys.attempts]) ∧
      (∀ key, s.keys.slots[0] = .valid key → s.keys.attempts = 0 →
        done q .blocked [flagByte s.keys.locked, 0]) ∧
      (s.keys.slots[0] = .valid v → s.keys.attempts ≠ 0 → done { q with locked := false, attempts := 3 } .ok [0, 3]) ∧
      (∀ key, s.keys.slots[0] = .valid key → s.keys.attempts ≠ 0 → v ≠ key →
        done { q with locked := true, attempts := s.keys.attempts - 1 } .wrongKey
          [1, BitVec.ofNat 8 (s.keys.attempts - 1)])) ∧
    (op = .lock →
      ((s.keys.slots[0]).isValid = true → done { q with locked := true } .ok [1]) ∧
      (¬ (s.keys.slots[0]).isValid = true → done q .refused [flagByte s.keys.locked])) ∧
    (∀ i key, op = .load i key →
      (s.keys.locked = true →
        exec .keyTaskServe s = .next ((({ s with keys := q }).postBlock).completeFree k .locked)) ∧
      (s.keys.locked = false →
        let begun : State := { s with keys := { q with
          slots := s.keys.slots.set i.val .invalid
          writing := some { target := i, key := key, task := some k } } }
        exec .keyTaskServe s = .next begun.postBlock)) ∧
    (∀ i, op = .erase i →
      (s.keys.locked = true →
        exec .keyTaskServe s = .next ((({ s with keys := q }).postBlock).completeFree k .locked)) ∧
      (s.keys.locked = false →
        done { q with slots := s.keys.slots.set i.val .empty } .ok [BitVec.ofNat 8 i.val, 0]))

/-! ### Tag lines -/

/-- R32, R33, R30, R45: what a controller sends: break, delimiter, pace byte, address byte, command, parameters and
check byte, each byte least significant bit first between a low start bit and a high stop bit; QUIET likewise to
address 0; a WAKE is a break of 40 bits. The frame that is sent passes the check of R33. -/
def Obligations.CallsAsSent : Prop :=
  let char (b : Byte) : List Bool := [false, b.getLsbD 0, b.getLsbD 1, b.getLsbD 2, b.getLsbD 3, b.getLsbD 4, b.getLsbD 5,
    b.getLsbD 6, b.getLsbD 7, true]
  let sent (covered : List Byte) (check : Byte) : List Bool :=
    List.replicate 14 false ++ [true] ++ ((0x55 :: covered) ++ [check]).flatMap char
  let ones (a : Byte) : Nat := ((List.range 5).filter (fun i => a.getLsbD i)).length
  let address (a : Byte) : Byte := BitVec.ofNat 8 (32 * ones a + a.toNat)
  (∀ (x : LineCtl) (t : Transaction), x.state = .calling → x.activity = .call → x.inFlight = some t →
    t.request.address.toNat ≤ 31 →
    let covered : List Byte := address t.request.address :: match t.request.command with
      | .readBlocks first count => [0x21, first, count]
      | .writeBlock block data => [0x22, block] ++ bytes32 data
      | .challenge v => 0x31 :: bytes64 v
      | .addUsage a => 0x41 :: bytes16 a
    x.sendingBits = sent covered (checkByte covered) ∧ foldSum (covered ++ [checkByte covered]) = 255) ∧
  (∀ (x : LineCtl) (n : Nat), x.state = .calling → x.activity = .quiet n → x.sendingBits = sent [0x00, 0x7E] 0x81) ∧
  (∀ (x : LineCtl) (n : Nat) (failed stuck : Bool), x.state = .calling → x.activity = .wake n failed stuck →
    x.sendingBits = List.replicate 40 false) ∧
  ∀ x : LineCtl, x.state ≠ .calling → x.sendingBits = []

/-- R47, R37, R35: an IDLE line takes the request at the head of its queue and sends its call; the end of the call
opens the reply window; the reply's pace byte is malformed, or gives T8 and the clock ratio. (That a malformed pace
byte is recorded with the line RECEIVING, and the attempt ends later, is log 13, the model's reading.) -/
def Obligations.TransactionSteps : Prop :=
  ∀ (s : State) (l : LineId), s.power = .on →
    let x := s.line l
    (∀ r rest, x.state = .idle → x.queue = r :: rest → exec (.lineTransactionStart l) s =
      .next (s.setLine l { x with
        queue := rest, state := .calling, activity := .call, pace := .none,
        inFlight := some { request := r, retries := 0, lastError := none, disposition := .live } })) ∧
    (x.state = .calling → x.activity = .call →
      exec (.callEnd l) s = .next (s.setLine l { x with state := .awaiting })) ∧
    ∀ e : PaceEdges, wfPace e = true → x.state = .awaiting →
      let t8 := e.span1 + e.span2 + e.span3 + e.span4
      let spansOk := ∀ v, v = e.span1 ∨ v = e.span2 ∨ v = e.span3 ∨ v = e.span4 → 3 * t8 ≤ 16 * v ∧ 16 * v ≤ 5 * t8
      let next (p : Pace) : Prop :=
        exec (.replyStart l e) s = .next (s.setLine l { x with state := .receiving, pace := p })
      (16000 < t8 ∨ ¬ spansOk ∨ e.stopHigh = false → next .malformed) ∧
      ∀ r, t8 ≤ 16000 → spansOk → e.stopHigh = true → isRounded (2 * 416667 * 10000) (125 * t8) r →
        (r < 7500 ∨ 12500 < r → next .malformed) ∧
        (7500 ≤ r → r ≤ 12500 → next (.measured t8 (BitVec.ofNat 16 r)))

/-- R31, R33, R34, R36, R22: the reception of a reply. Characters within the gap, as many as command and status call
for, whose check holds are the reply; a wrong check byte or a low stop bit is CHECK; a gap above 3 b, a block count
that the status does not allow or an edge within 3 b of the check byte is LENGTH; an edge that is no start bit is
ignored. (That an edge at exactly 3 b after the check byte, or one there that is no start bit, is LENGTH is log 14, the
model's reading.) -/
def Obligations.ReplyReceived : Prop :=
  ∀ (c : LineCommand) (t8 : Nat) (status : Byte) (data : List Byte), replyData c status data →
    let bytes : List Byte := status :: data
    let laid (bs : List Byte) (es : List RxEdge) : Prop :=
      ∃ gaps : List Nat, gaps.length = bs.length ∧ (∀ g ∈ gaps, 8 * g ≤ 3 * t8) ∧ es = List.zipWith charEdge gaps bs
    (∀ es, laid (bytes ++ [checkByte bytes]) es → receive c t8 [] es = .reply status data) ∧
    (∀ es check, laid (bytes ++ [check]) es → foldSum (bytes ++ [check]) ≠ 255 →
      receive c t8 [] es = .error .check) ∧
    (∀ es e rest, laid (bytes ++ [checkByte bytes]) es → 8 * e.gap ≤ 3 * t8 →
      receive c t8 [] (es ++ e :: rest) = .error .length) ∧
    ∀ es n e rest, n ≤ bytes.length → laid (bytes.take n) es →
      (3 * t8 < 8 * e.gap → receive c t8 [] (es ++ e :: rest) = .error .length) ∧
      (8 * e.gap ≤ 3 * t8 → e.samples.getLsbD 0 = true →
        receive c t8 [] (es ++ e :: rest) = receive c t8 [] (es ++ rest)) ∧
      (8 * e.gap ≤ 3 * t8 → e.samples.getLsbD 0 = false → e.samples.getLsbD 9 = false →
        receive c t8 [] (es ++ e :: rest) = .error .check) ∧
      (∀ (first count blocks : Byte) (g h : Nat), c = .readBlocks first count → 8 * g ≤ 3 * t8 → 8 * h ≤ 3 * t8 →
        (blocks ≠ count → receive c t8 [] (charEdge g 0 :: charEdge h blocks :: rest) = .error .length) ∧
        (blocks = 0 ∨ count.toNat ≤ blocks.toNat →
          receive c t8 [] (charEdge g 6 :: charEdge h blocks :: rest) = .error .length))

/-- R30, R37, R38, R51: an attempt that fails is counted under its error and the line rests: READBACK at a bit sent in
CALLING (a call, a QUIET or a WAKE), NO_REPLY in AWAITING, PACE, CHECK and LENGTH in RECEIVING. (That PACE ends the
attempt at REPLY_ATTEMPT_ERROR, whatever edges that carries, is log 13, the model's reading.) (That the block is due
for its posting also where the count stands at 65 535 is log 34, the model's reading. A level that agrees with the
bit is no failure and does nothing, log 1.) -/
def Obligations.AttemptFails : Prop :=
  ∀ (s : State) (l : LineId), s.power = .on →
    let x := s.line l
    let c := x.counts
    let rests (y : LineCtl) (n : LineCounts) : State := (s.setLine l { y with state := .resting, counts := n }).touchBlock
    let failed (e : LineError) : LineCtl :=
      { x with pace := .none, inFlight := x.inFlight.map (fun t => { t with lastError := some e }) }
    let readback : LineCounts := { c with readback := satInc c.readback }
    (∀ bit level b, x.sendingBits[bit]? = some b →
      (level = b → exec (.readbackFailure l bit level) s = .next s) ∧
      (level ≠ b → x.activity = .call →
        exec (.readbackFailure l bit level) s = .next (rests (failed .readback) readback)) ∧
      (∀ n, level ≠ b → x.activity = .quiet n → exec (.readbackFailure l bit level) s = .next (rests x readback)) ∧
      (∀ n again stuck, level ≠ b → x.activity = .wake n again stuck → exec (.readbackFailure l bit level) s =
        .next (rests { x with activity := .wake n true stuck } readback))) ∧
    (x.state = .awaiting →
      exec (.replyWindowExpiry l) s = .next (rests (failed .noReply) { c with noReply := satInc c.noReply })) ∧
    ∀ es t, x.state = .receiving → x.inFlight = some t →
      (x.pace = .malformed →
        exec (.replyAttemptError l es) s = .next (rests (failed .pace) { c with pace := satInc c.pace })) ∧
      ∀ t8 r e, x.pace = .measured t8 r → receive t.request.command t8 [] es = .error e →
        (e = .check →
          exec (.replyAttemptError l es) s = .next (rests (failed .check) { c with check := satInc c.check })) ∧
        (e = .length →
          exec (.replyAttemptError l es) s = .next (rests (failed .length) { c with length := satInc c.length })) ∧
        (e = .check ∨ e = .length)

/-- R36, R37, R41, R48, R27, R28, R51: a valid reply completes the transaction. The line is IDLE and the counts rise;
the outcome goes to the task or the position that placed the request, ends a cancelled task CANCELLED, or is discarded;
then the line looks at the QUIET conditions. (That it does so before a STOPPING device looks whether all is idle is log
40, and that the line is IDLE with its counts raised before the hand-over log 43: the model's choices. Unstated data:
log 7.) (That the block is due for its posting also where a count stands at 65 535 is log 34, the model's reading.)
(That the postings and results of the hand-over come before the line looks at QUIET is log 50, the model's choice.) -/
def Obligations.ReplyCompletes : Prop :=
  ∀ (s : State) (l : LineId) (es : List RxEdge) (t : Transaction) (t8 : Nat) (ratio : Word16) (status : Byte)
    (data : List Byte), s.power = .on → (s.line l).state = .receiving → (s.line l).inFlight = some t →
    (s.line l).pace = .measured t8 ratio → receive t.request.command t8 [] es = .reply status data →
    let x := s.line l
    let idle := (s.setLine l { x with
      state := .idle, activity := .none, pace := .none, inFlight := none,
      counts := { x.counts with
        transactions := satInc x.counts.transactions
        status := if status = 0 then x.counts.status else satInc x.counts.status } }).touchBlock
    let ends (v : State) : Prop := exec (.replyComplete l es) s = .next ((v.examineQuiet l).finish)
    let result (n : Byte) (blocks : List Byte) : List Byte :=
      [status, n] ++ bytes16 ratio ++ [BitVec.ofNat 8 t.retries, 0] ++ blocks
    (t.disposition = .withdrawn → ends idle) ∧
    (∀ k, t.disposition = .cancelled → t.request.requester = .task k → ends (idle.completeFree k .cancelled)) ∧
    (∀ k first count n blocks, t.disposition = .live → t.request.requester = .task k →
      t.request.command = .readBlocks first count → status = 0 ∨ status = 6 → data = n :: blocks →
      ends (idle.complete k .ok (result n blocks))) ∧
    (∀ k first count, t.disposition = .live → t.request.requester = .task k →
      t.request.command = .readBlocks first count → status ≠ 0 → status ≠ 6 →
      ends (idle.complete k .ok (result 0 []))) ∧
    (∀ k block w, t.disposition = .live → t.request.requester = .task k →
      t.request.command = .writeBlock block w → ends (idle.complete k .ok (result 0 []))) ∧
    ∀ p, t.disposition = .live → t.request.requester = .position p →
      ends ((idle.positionLine p (.reply status data ratio t.retries)).choose p)

/-- R39, R40, R41, R44, R45, R27, R51: the end of a rest. A transaction is called again while it may be, and fails to
its requester otherwise; a QUIET that failed is sent again or the line is held back; a WAKE that failed is sent again,
otherwise the line is IDLE, leaving STUCK is posted and every LINE_RESET that waits ends, in order. (The tag status
byte of a failed TAG_READ or TAG_WRITE is free, log 32; that a repeated WAKE adds to no count and one rest follows the
last is log 16, that a cancelled TAG_READ is not retried log 36, that QUIET is looked at before STOPPED log 40, that the
line is IDLE before the hand-over log 43, and that several LINE_RESETs end with one posting, in order, log 44: the
model's choices.) (Unstated data: log 7.) (That the block is due for its posting also where a count stands at 65 535
is log 34, and that a posting made in STARTING is kept log 47: the model's choices.) (That postings and results come
before the line looks at QUIET is log 50, the model's choice.) -/
def Obligations.RestEnds : Prop :=
  ∀ (s : State) (l : LineId), s.power = .on → (s.line l).state = .resting →
    let x := s.line l
    let c := x.counts
    let ends (v : State) : Prop := exec (.lineRestEnd l) s = .next v
    let idle : LineCtl := { x with state := .idle, activity := .none, pace := .none, inFlight := none }
    let retried : LineCounts := { c with retries := satInc c.retries }
    (∀ t, x.activity = .call → x.inFlight = some t →
      let due := t.disposition = .live ∧ t.retries < s.settings.retryCount.toNat
      let failed := (s.setLine l { idle with
        counts := { c with transactions := satInc c.transactions } }).touchBlock
      (due → ends ((s.setLine l { x with
        state := .calling, pace := .none, counts := retried,
        inFlight := some { t with retries := t.retries + 1 } }).touchBlock)) ∧
      (¬ due → t.disposition = .withdrawn → ends ((failed.examineQuiet l).finish)) ∧
      (∀ k, ¬ due → t.disposition = .cancelled → t.request.requester = .task k →
        ends (((failed.completeFree k .cancelled).examineQuiet l).finish)) ∧
      (∀ k e, ¬ due → t.disposition = .live → t.request.requester = .task k → t.lastError = some e → e ≠ .stuck →
        e ≠ .reset → ∃ d : Byte,
        ends (((failed.complete k .lineFailed [d, 0, 0, 0, BitVec.ofNat 8 t.retries, e.code]).draw.examineQuiet
          l).finish)) ∧
      (∀ p e, ¬ due → t.disposition = .live → t.request.requester = .position p → t.lastError = some e →
        ends ((((failed.positionLine p (.failure e t.retries)).choose p).examineQuiet l).finish))) ∧
    (∀ n, x.activity = .quiet n →
      (n < s.settings.retryCount.toNat → ends ((s.setLine l { x with
        state := .calling, activity := .quiet (n + 1), counts := retried }).touchBlock)) ∧
      (s.settings.retryCount.toNat ≤ n → ends ((s.setLine l { idle with heldBack := true }).finish))) ∧
    ∀ n again stuck, x.activity = .wake n again stuck →
      let left := if stuck = true then (s.setLine l idle).postBlock else s.setLine l idle
      let due := again = true ∧ n < s.settings.retryCount.toNat
      (due → ends (s.setLine l { x with state := .calling, activity := .wake (n + 1) false stuck })) ∧
      (¬ due → x.resetTasks = [] → ends ((left.examineQuiet l).finish)) ∧
      (¬ due → x.resetTasks ≠ [] →
        ends (((x.resetTasks.foldl
          (fun v w => v.complete w.slot .ok [w.found.code, flagByte w.failed, BitVec.ofNat 8 w.queued])
          (left.setLine l { idle with resetTasks := [] }).postBlock).examineQuiet l).finish))

/-- R44, R45, R42, R43, R49, R51, R27, R41, R48: when QUIET is sent (its conditions), the line QUIET once it has been
sent, woken again for a request that waits; a WAKE sent; entry to STUCK with the transaction and the queue (taken out
first, log 15) failed in order, and leaving it with a WAKE. A failed task ends LINE_STUCK with the error and the
retries (its tag status byte is free, log 32), a failed position takes the failure and chooses, a withdrawn transaction
is discarded and a cancelled one ends CANCELLED; a LINE_RESET that waits ends then (R49; one posting for several, log
44; the counts rise before the failures are handed, log 43). LINE_STUCK_ENTRY in STUCK, or while the controller drives
the line, does nothing (log 1). (Unstated data: log 7. That a posting made in STARTING is
kept is log 47, the model's choice.) (That the results of failed tasks come before the posting of the entry to STUCK
is log 52, the model's choice.) -/
def Obligations.QuietWakeAndStuck : Prop :=
  failsInOrder .stuck .lineStuck 6 ∧
  ∀ (s : State) (l : LineId),
    let x := s.line l
    let mayQuiet := x.state = .idle ∧ x.queue = [] ∧ (∀ p, (s.pos p).enabled = true → (s.pos p).applied.line ≠ l) ∧
      s.settings.quiet = true ∧ x.heldBack = false
    let waking (stuck : Bool) : LineCtl :=
      { x with state := .calling, activity := .wake 0 false stuck, pace := .none, inFlight := none }
    (mayQuiet → s.examineQuiet l = s.setLine l { x with state := .calling, activity := .quiet 0, pace := .none }) ∧
    (¬ mayQuiet → s.examineQuiet l = s) ∧
    (∀ n, s.power = .on → x.state = .calling → x.activity = .quiet n →
      let quiet := (s.setLine l { x with state := .quiet, activity := .none }).postBlock
      (x.queue = [] → exec (.quietSent l) s = .next quiet.finish) ∧
      (x.queue ≠ [] → exec (.quietSent l) s = .next (((quiet.setLine l (waking false)).postBlock).finish))) ∧
    (∀ n again stuck, s.power = .on → x.state = .calling → x.activity = .wake n again stuck →
      exec (.wakeSent l) s = .next (s.setLine l { x with state := .resting })) ∧
    (s.power = .on → x.state ≠ .stuck → x.state ≠ .calling →
      let c := x.counts
      let n := if x.inFlight.isSome then satInc c.transactions else c.transactions
      let stuck := s.setLine l { x with
        state := .stuck, activity := .none, pace := .none, queue := [], inFlight := none,
        counts := { c with transactions := n, stuck := satInc c.stuck } }
      exec (.lineStuckEntry l) s =
        .next (((stuck.failAll x.inFlight x.queue .stuck).postBlock.endResets l).finish) ∧
      (x.inFlight = none → x.queue = [] → x.resetTasks = [] →
        exec (.lineStuckEntry l) s = .next stuck.postBlock.finish) ∧
      (x.inFlight = none → x.queue = [] → x.resetTasks ≠ [] → exec (.lineStuckEntry l) s = .next (x.resetTasks.foldl
        (fun v w => v.complete w.slot .ok [w.found.code, flagByte w.failed, BitVec.ofNat 8 w.queued])
        (stuck.postBlock.setLine l { stuck.line l with resetTasks := [] }).postBlock).finish)) ∧
    (s.power = .on → x.state = .stuck ∨ x.state = .calling → exec (.lineStuckEntry l) s = .next s) ∧
    (s.power = .on → x.state = .stuck → exec (.lineStuckRelease l) s = .next ((s.setLine l (waking true)).postBlock))

/-! ### Measurement -/

/-- R77, R78, R80, R81, R82, R85, R86, R87, R88, R66, R71: a measurement starts, settles and ends. The end is counted;
a withdrawn outcome is discarded and a cancelled CALIBRATE ends CANCELLED; a position's outcome goes to its sequencer;
CALIBRATE writes the record, or ends IN_USE or OUT_OF_RANGE. With the end of a CALIBRATE, one withdrawn by RESTART too,
the oldest waiting task is checked again: it enters the queue, or ends IN_USE and the next is taken (R85). R66, R68: the
sequencer takes a signature outcome's values, keeps what was not handed, and ends CLEAN or with the findings of the
cycle and the screening groups. R71, R14: a presence outcome is SILENT or ABSENT by the presence limit. After the outcome
the unit returns to IDLE (R78). (That both counts are raised before the hand-over, and that its state and queue length
cause no posting, is log 41; that a saturated count marks the block, log 34; that the record causes no posting of its
own, log 27: the model's choices. Unstated data: log 7.) -/
def Obligations.MeasurementSteps : Prop :=
  (∀ (s : State) (p : PosId) (c : CycleContext) (o : SignatureOutcome), (s.pos p).cycle = some c →
    let x := s.pos p
    let v := s.setPos p { x with
      rMeas := o.rMeas.getD x.rMeas, r20 := o.r20.getD x.r20, rExp := o.rExp.getD x.rExp,
      deviation := o.deviation.getD x.deviation
      cycle := some { c with
        findings := c.findings ||| o.findings, r20 := o.r20, deviation := o.deviation, temp := o.temp } }
    let f := c.findings ||| o.findings ||| screenFindings s.rules.toList {
      deviation := o.deviation.map BitVec.toInt
      r20 := o.r20.map BitVec.toInt
      clock := c.ratio.toNat
      temp := (o.temp.getD (clampTemp (tagTemperature c.blocks))).toInt
      usageThousands := ((tagCounter c.blocks).toNat / 1000 : Nat)
      pending := x.pendingUse.toNat
      retries := (c.identifyRetries + c.challengeRetries : Nat)
      classCode := tagClass c.blocks }
    let limits := limitsOf c.classCopy
    (f = 0 → s.signatureOutcome p o = v.endCycle p .clean 0 .none limits) ∧
    (f ≠ 0 → s.signatureOutcome p o = v.endCycle p .findings f .none limits)) ∧
  (∀ (s : State) (p : PosId) (o : PresenceOutcome),
    let v := s.setPos p { s.pos p with rMeas := (o.rMeas.map (BitVec.ofNat 32)).getD (s.pos p).rMeas }
    let limits : Limits := { trip := 1, recover := 0, forgive := 255, latch := 3 }
    let present := o.saturated = false ∧ (∃ n, o.net = some n ∧ 0 < n) ∧
      ∃ r, o.rMeas = some r ∧ r < s.settings.presenceLimit.toNat
    (present → s.presenceOutcome p o = v.endCycle p .findings 0x0800 .none limits) ∧
    (¬ present → s.presenceOutcome p o = v.endCycle p .absent 0 .none limits)) ∧
  (∀ s : State,
    let m := s.meas
    let calibrating := (∃ r ∈ m.queue, r.slot ≠ none) ∨ ∃ f, m.inFlight = some f ∧ f.request.slot ≠ none
    (calibrating → s.advanceCalibration = s) ∧ (m.waiting = [] → s.advanceCalibration = s) ∧
    ∀ r more, ¬ calibrating → m.waiting = r :: more →
      let inUse := ∃ p, (s.pos p).enabled = true ∧ (s.pos p).applied.channel = some r.channel
      (¬ inUse → s.advanceCalibration = { s with meas := { m with queue := m.queue ++ [r], waiting := more } }) ∧
      ∀ k, inUse → r.slot = some k → s.advanceCalibration =
        (({ s with meas := { m with waiting := more } } : State).completeFree k .inUse).advanceCalibration) ∧
  ∀ s : State, s.power = .on →
    let m := s.meas
    (∀ r rest, m.state = .idle → m.queue = r :: rest → exec .measurementStart s = .next { s with
      meas := { m with state := .settling, queue := rest, inFlight := some { request := r, disposition := .live } } }) ∧
    (m.state = .settling → exec .settlingEnd s = .next { s with meas := { m with state := .sampling } }) ∧
    ∀ (xs : Vector Word16 16) (f : MeasFlight), m.state = .sampling → m.inFlight = some f →
      let full := xs.toList.any (fun x => decide (x.toInt = 32767 ∨ x.toInt = -32768))
      let u := { s with
        blockDirty := true
        meas := { m with
          inFlight := none, measurements := satInc m.measurements,
          saturated := if full = true then satInc m.saturated else m.saturated } }
      let ends (v : State) : Prop :=
        exec (.samplingEnd xs) s = .next ({ v with meas := { v.meas with state := .idle } } : State).finish
      let cal := m.cal[f.request.channel.val]
      (∀ p, f.disposition = .withdrawn → f.request.position = some p → ends u) ∧
      (∀ k c kind ref, f.disposition = .cancelled → f.request = { channel := c, kind := .calibrate k kind ref } →
        ends (u.completeFree k .cancelled).advanceCalibration) ∧
      (∀ k c kind ref, f.disposition = .withdrawn → f.request = { channel := c, kind := .calibrate k kind ref } →
        ends u.advanceCalibration) ∧
      (∀ p source tag factory counter alpha beta tau, f.disposition = .live →
        f.request.kind = .signature p source tag factory counter alpha beta tau →
        let t := if source = .tag then tag else s.mem.word (0x0112 + 128 * p.val)
        ends ((u.signatureOutcome p (signatureStages xs.toList cal t factory counter alpha beta tau)).choose p)) ∧
      (∀ p, f.disposition = .live → f.request.kind = .presence p →
        ends ((u.presenceOutcome p (presenceStages xs.toList cal)).choose p)) ∧
      ∀ k c kind ref a, f.disposition = .live → f.request = { channel := c, kind := .calibrate k kind ref } →
        let sum := (xs.toList.map BitVec.toInt).sum
        isRoundedInt sum 16 a →
        let inUse := ∃ p, (s.pos p).enabled = true ∧ (s.pos p).applied.channel = some c
        let ended (st : TaskStatus) (r : CalRecord) : Prop :=
          let v := { u with meas := { u.meas with cal := u.meas.cal.set c.val r } }
          ends (v.complete k st ([BitVec.ofNat 8 c.val, kind.code, flagByte full, 0] ++ bytes32 (BitVec.ofInt 32 sum) ++
            bytes16 (BitVec.ofInt 16 a) ++ bytes16 r.offset ++ bytes32 r.gain)).advanceCalibration
        let net := a - cal.offset.toInt
        (inUse → ended .inUse cal) ∧
        (¬ inUse → kind = .offset → full = true ∨ a < -2048 ∨ 2047 < a → ended .outOfRange cal) ∧
        (¬ inUse → kind = .offset → full = false → -2048 ≤ a → a ≤ 2047 →
          ended .ok { cal with offset := BitVec.ofInt 16 a }) ∧
        (¬ inUse → kind = .gain → full = true ∨ net < 1000 → ended .outOfRange cal) ∧
        ∀ g, ¬ inUse → kind = .gain → full = false → 1000 ≤ net → isRounded (ref.toNat * 65536) net.toNat g →
          (g = 0 ∨ 16777215 < g → ended .outOfRange cal) ∧
          (1 ≤ g → g ≤ 16777215 → ended .ok { cal with gain := BitVec.ofNat 32 g })

/-- R90 to R96: the six stages of a signature measurement, each rounded and clamped as the
rules say, and what a presence measurement hands: the saturated mark, N, and R_meas (Table 2 of R96). -/
def Obligations.SignatureArithmetic : Prop :=
  ∀ (xs : List Word16) (c : CalRecord) (t : Word16) (factory counter : Word32) (alpha beta : Word16) (tau : Word32)
    (a : Int), isRoundedInt ((xs.map BitVec.toInt).sum) 16 a →
    let full := ∃ x ∈ xs, x.toInt = 32767 ∨ x.toInt = -32768
    let o := signatureStages xs c t factory counter alpha beta tau
    let net := a - c.offset.toInt
    (full → o = ⟨0x0400, none, none, none, none, none⟩ ∧ presenceStages xs c = ⟨true, none, none⟩) ∧
    (¬ full → net ≤ 0 →
      o = ⟨0x0400, some 0, none, none, none, none⟩ ∧ presenceStages xs c = ⟨false, some net, none⟩) ∧
    ∀ m r e : Nat, ¬ full → 0 < net → alpha.toNat ≤ 6000 → tau.toNat ≤ 1000000 →
      isRounded (net.toNat * c.gain.toNat) 65536 m →
      let rMeas := min 4000000 m
      let temp := max (-80) (min 500 t.toInt)
      let d : Int := 2000000 + alpha.toNat * (temp - 40)
      isRounded (rMeas * 2000000) d.toNat r →
      let r20 := min 4000000 r
      let w : Int := max (-250000) (min 250000 (beta.toInt * (counter.toNat / 1000 : Nat)))
      isRounded (factory.toNat * (1000000 + w).toNat) 1000000 e →
      let rExp := max 1 (min 4000000 e)
      let lo := rExp * (1000000 - tau.toNat) / 1000000
      let hi := (rExp * (1000000 + tau.toNat) + 999999) / 1000000
      let deviation := max (-999999) (min 999999 ((((r20 : Int) - rExp) * 1000000).tdiv rExp))
      0 < d ∧ presenceStages xs c = ⟨false, some net, some rMeas⟩ ∧
      o = ⟨if r20 < lo ∨ hi < r20 then 0x0200 else 0, some (BitVec.ofNat 32 rMeas), some (BitVec.ofNat 32 r20),
        some (BitVec.ofNat 32 rExp), some (BitVec.ofInt 32 deviation), some (BitVec.ofInt 16 temp)⟩

/-! ### Timers and inputs -/

/-- R9, R10: a timer that expires sets the owed flag; in IDLE the sequencer chooses, in CYCLE and COMMIT an overrun is
counted and the timer restarts. R157: a new level of INHIBIT_N is followed by the permits. R97: an input accepted
low (that it causes no posting is log 27, the model's reading). R16, R177: the two posting delays. A timer that does not
run, an unchanged level and a posting delay with nothing to post do nothing (log 1). (That a change in STARTING is
posted like any other is log 34, and that a posting made there is kept log 47: the model's choices.) -/
def Obligations.TimersAndInputs : Prop :=
  ∀ s : State, s.power = .on →
    (∀ p : PosId, let x := s.pos p
      ((∀ v, x.timer ≠ .running v) → exec (.intervalTimerExpiry p) s = .next s) ∧
      ∀ v, x.timer = .running v →
        (x.seq = .idle →
          exec (.intervalTimerExpiry p) s = .next (((s.setPos p { x with owed := true }).choose p).finish)) ∧
        (x.seq = .cycle ∨ x.seq = .commit → exec (.intervalTimerExpiry p) s = .next ((s.setPos p { x with
          owed := true, overruns := satInc x.overruns, timer := .running x.applied.interval }).finish))) ∧
    (∀ level, (level = s.inhibitN → exec (.inhibitNChange level) s = .next s) ∧
      (level ≠ s.inhibitN →
        exec (.inhibitNChange level) s = .next ({ s with inhibitN := level }).evaluatePermits)) ∧
    (∀ k : InputId, ∃ t, exec (.cycleInputAcceptedLow k) s = .next t ∧ t = { s with levels := t.levels } ∧
      ∀ j : InputId, t.levels.getLsbD j.val = (s.levels.getLsbD j.val && decide (j ≠ k))) ∧
    (∀ p, ((s.pos p).pulseDirty = true → exec (.stateHalfPostingDelay p) s = .next (s.postHalf p)) ∧
      ((s.pos p).pulseDirty = false → exec (.stateHalfPostingDelay p) s = .next s)) ∧
    (s.blockDirty = true → exec .deviceBlockPostingDelay s = .next s.postBlock) ∧
    (s.blockDirty = false → exec .deviceBlockPostingDelay s = .next s)

/-- R97, R98, R144, R156, R8: a pulse on an input accepted low is counted on the input and at every enabled position of
that input: pending, dropped or lost, and grace left in ARRIVING and DOUBTFUL; the permits follow each position's
change (one position at a time, in an order left open, log 9), and IDLE sequencers that have something to choose choose
(in an order left open, log 9). On an input already high it is no pulse (log 1). (That the pulse is counted at every
position before any chooses is log 49, the model's choice.) -/
def Obligations.PulsesCounted : Prop :=
  ∀ (s : State) (k : InputId), s.power = .on →
    (s.levels.getLsbD k.val = true → exec (.cyclePulse k) s = .next s) ∧
    (s.levels.getLsbD k.val = false → ∃ (u i : State) (order reached : List PosId),
      exec (.cyclePulse k) s = .next ((order.foldl (fun t p => t.choose p) u).draw.finish) ∧
      u = { s with positions := u.positions, levels := u.levels, pulses := u.pulses, permits := u.permits,
                   attention := u.attention, mem := u.mem, blockEdition := u.blockEdition,
                   blockDirty := u.blockDirty, free := s.free + 1 } ∧
      i = { s with levels := u.levels, pulses := u.pulses, blockDirty := true } ∧ reached.Nodup ∧
      (∀ p, p ∈ reached ↔ (s.pos p).enabled = true ∧ (s.pos p).applied.cycleInput = some k) ∧
      u = (reached.foldl (fun t p => (t.setPos p (u.pos p)).evaluatePermits) i).draw ∧
      (reached ≠ [] → u.permitsCurrent = true) ∧ u.permits.holds = s.permits.holds ∧
      u.permits.groupEnable = s.permits.groupEnable ∧
      (∀ a, hostByte a = true → u.mem.read a = s.mem.read a) ∧
      (∀ j : InputId, u.levels.getLsbD j.val = (s.levels.getLsbD j.val || decide (j = k))) ∧
      (∀ j : InputId, u.pulses[j.val] = if j = k then s.pulses[j.val] + 1 else s.pulses[j.val]) ∧
      (∀ p, let x := s.pos p
        let taking := x.enabled = true ∧ x.applied.cycleInput = some k
        let y := u.pos p
        let bound := x.boundUid ≠ none
        (¬ taking → y = x) ∧
        (taking → y = { x with
          pendingUse := y.pendingUse, dropped := y.dropped, lost := y.lost, grace := y.grace, pulseDirty := true } ∧
          y.pendingUse = (if bound ∧ x.pendingUse ≠ 0xFFFF then x.pendingUse + 1 else x.pendingUse) ∧
          y.dropped = (if bound ∧ x.pendingUse = 0xFFFF then x.dropped + 1 else x.dropped) ∧
          y.lost = (if bound then x.lost else x.lost + 1) ∧
          y.grace = if (x.verdict = .arriving ∨ x.verdict = .doubtful) ∧ x.grace ≠ 0 then x.grace - 1 else x.grace)) ∧
      order.Nodup ∧ ∀ p, let y := u.pos p
        p ∈ order ↔ (s.pos p).enabled = true ∧ (s.pos p).applied.cycleInput = some k ∧ y.seq = .idle ∧
          (y.editionWaiting = true ∨ y.owed = true ∨ (y.boundUid ≠ none ∧ y.unconfirmed = false ∧
            (y.commitWaiting ≠ [] ∨ y.applied.threshold.toNat ≤ y.pendingUse.toNat))))

/-! ### Identity and verdicts -/

/-- R114, R115, R116, R119, R122, R123: a sighting creates, binds or contests and moves the record to the last place, a
full table evicting its first unbound record; a UID joins the end of the retired list unless it is there, a full list
dropping its oldest unprotected entry. -/
def Obligations.SightingsAndRetirements : Prop :=
  (∀ (s : State) (q : PosId) (u : Word64) (cls : Word16) (c : Word32),
    let t := s.sight q u cls c
    let x := s.pos q
    let others := s.identity.filter (fun r => decide (r.uid ≠ u))
    let fresh : IdentityRecord := { uid := u, classCode := cls, bound := some q, known := c, rejects := 0, contest := [] }
    let placed (table : List IdentityRecord) (evictions : Word16) (dirty : Bool) (held : UidHeld) : State :=
      { s.setPos q { x with uid := held } with identity := table, evictions := evictions, blockDirty := dirty }
    (s.record u = none → s.identity.length < 48 → t = placed (s.identity ++ [fresh]) s.evictions true (.bound u)) ∧
    (∀ before v after, s.record u = none → 48 ≤ s.identity.length → s.identity = before ++ v :: after →
      v.bound = none → (∀ r ∈ before, r.bound ≠ none) →
      t = placed (before ++ after ++ [fresh]) (satInc s.evictions) true (.bound u)) ∧
    ∀ r, s.record u = some r →
      (r.bound = none →
        t = placed (others ++ [{ r with bound := some q, classCode := cls }]) s.evictions true (.bound u)) ∧
      (r.bound = some q → t = placed (others ++ [{ r with classCode := cls }]) s.evictions s.blockDirty (.bound u)) ∧
      (∀ p, r.bound = some p → p ≠ q →
        t = placed (others ++ [{ r with contest := if q ∈ r.contest then r.contest else r.contest ++ [q] }]) s.evictions
          s.blockDirty (.read u))) ∧
  ∀ (s : State) (u : Word64),
    let guarded (v : Word64) : Prop := ∃ p, (s.pos p).verdict = .barred ∧ (s.pos p).boundUid = some v
    (u ∈ s.retired → s.retire u = s) ∧
    (u ∉ s.retired → s.retired.length < 128 → s.retire u = { s with retired := s.retired ++ [u] }) ∧
    ∀ before v after, u ∉ s.retired → 128 ≤ s.retired.length → s.retired = before ++ v :: after → ¬ guarded v →
      (∀ w ∈ before, guarded w) →
      s.retire u = { s with retired := before ++ after ++ [u], retiredDropped := satInc s.retiredDropped }

/-- R131 to R141, R143: applying a result, by the first case that fits: BARRED, RETIRED with a record concerned, another
immediate finding, SILENT, persistent findings with the trip, a clean result by state, INCONCLUSIVE and ABSENT. Findings
and reason are recorded in every case. -/
def Obligations.VerdictApplied : Prop :=
  ∀ (s : State) (p : PosId) (r : Result),
    let x := { s.pos p with findings := r.findings, reason := r.reason }
    let t := s.applyResult p r
    let low (v : Verdict) : Position := { x with verdict := v, doubt := 0, clean := 0, grace := 0 }
    let immediate := r.findings &&& 0x00FF ≠ 0
    let retired := r.findings &&& 0x0004 ≠ 0
    let rejected : Prop :=
      (r.concerned = none → t = s.setPos p (low .rejected)) ∧
      ∀ u rec, r.concerned = some u → s.record u = some rec →
        let n := min 15 (rec.rejects + 1)
        t.record u = some { rec with rejects := n } ∧
        (n < r.limits.latch → t.pos p = low .rejected ∧ t.retired = s.retired) ∧
        (r.limits.latch ≤ n → t.pos p = low .barred ∧ ∀ v, x.boundUid = some v → v ∈ t.retired)
    let doubt := satInc x.doubt
    let clean := satInc x.clean
    let judged := x.verdict = .arriving ∨ x.verdict = .cleared ∨ x.verdict = .expired ∨ x.verdict = .doubtful
    let refill : Word16 := if x.applied.cycleInput = none then 0 else x.applied.grace
    let cleared (y : Position) : Position :=
      if x.wear = true then { y with verdict := .expired } else { y with verdict := .cleared, grace := refill }
    (∀ q, q ≠ p → t.pos q = s.pos q) ∧
    (x.verdict = .barred → t = s.setPos p x) ∧
    (x.verdict ≠ .barred →
      (∀ u v, retired → r.concerned = some u → x.boundUid = some v →
        t = (s.setPos p (low .barred)).retire v ∧ t.identity = s.identity) ∧
      (immediate → ¬ (retired ∧ r.concerned ≠ none) → rejected) ∧
      (r.findings = 0x0800 →
        t = s.setPos p { x with verdict := .doubtful, doubt := doubt, clean := 0, grace := 0 }) ∧
      (¬ immediate → r.findings ≠ 0 → r.findings ≠ 0x0800 →
        (judged → doubt.toNat < r.limits.trip →
          t = s.setPos p { x with verdict := .doubtful, doubt := doubt, clean := 0 }) ∧
        (judged → r.limits.trip ≤ doubt.toNat → rejected) ∧
        (x.verdict = .rejected → t = s.setPos p { x with doubt := doubt, clean := 0 })) ∧
      (r.findings = 0 → r.kind = .clean →
        let y := { x with clean := clean, doubt := 0 }
        (x.verdict = .arriving ∨ x.verdict = .doubtful → t = s.setPos p (cleared y)) ∧
        (x.verdict = .rejected → r.limits.recover = 0 ∨ clean.toNat < r.limits.recover → t = s.setPos p y) ∧
        (x.verdict = .rejected → 0 < r.limits.recover → r.limits.recover ≤ clean.toNat →
          t = s.setPos p (cleared y)) ∧
        (x.verdict = .cleared ∨ x.verdict = .expired →
          t.pos p = (if x.wear = true then { y with verdict := .expired }
            else if x.verdict = .cleared then y else { y with verdict := .cleared, grace := refill }) ∧
          t = { s with positions := t.positions, identity := t.identity } ∧
          (∀ u, r.concerned = some u → clean ≠ x.clean → clean.toNat % r.limits.forgive = 0 →
            t.identity = s.identity.map (fun (a : IdentityRecord) =>
              if a.uid = u then { a with rejects := a.rejects - 1 } else a)) ∧
          (r.concerned = none ∨ clean = x.clean ∨ clean.toNat % r.limits.forgive ≠ 0 → t.identity = s.identity))) ∧
      (r.findings = 0 → r.kind = .inconclusive → t = s.setPos p x) ∧
      (r.findings = 0 → r.kind = .absent → t = s.setPos p (low .vacant)))

/-! ### Commits and cycles -/

/-- R104, R105, R106, R107, R108, R103, R111, R142, R17: what an answer to ADD_USAGE or to the confirm read, and a
failure, do to the amount in flight, K, the findings and the attached task; the commit ends, or goes on with the
confirm read. R111, R142: the end of a commit that changed K evaluates the wear flag; newly set, and with no result
handed, it turns CLEARED into EXPIRED and leaves any other verdict. -/
def Obligations.CommitSettled : Prop :=
  ∀ (s : State) (p : PosId) (c : CommitContext) (w : Word64) (rec : IdentityRecord), (s.pos p).seq = .commit →
    (s.pos p).commit = some c → (s.pos p).boundUid = some w → s.record w = some rec →
    let x := s.pos p
    let amount := x.inFlight
    let given := { x.usage with committed := x.committed + amount.setWidth 32, inFlight := 0 }
    let lost := { x.usage with lost := x.lost + amount.setWidth 32, inFlight := 0 }
    let sum := x.pendingUse.toNat + amount.toNat
    let back := { x.usage with
      pendingUse := BitVec.ofNat 16 (min 65535 sum), dropped := x.dropped + BitVec.ofNat 32 (sum - 65535), inFlight := 0 }
    let due (t : State) : Bool := decide (x.usageLimit ≠ 0 ∧ x.usageLimit.toNat ≤ (t.known w).toNat)
    let ended (t : State) (usage : UsageCounts) (known : Nat) (outcome : Byte) : Prop :=
      (t.pos p).wear = (if t.known w = c.base then x.wear else due t) ∧
      (t.pos p).seq = .idle ∧ (t.pos p).commit = none ∧ (t.pos p).usage = usage ∧ (t.known w).toNat = known ∧
      (t.pos p).known = t.known w ∧ (t.pos p).cycleNumber = x.cycleNumber ∧
      ∀ k, c.tasks = [k] → t.mem.word (0x1082 + 256 * k.val) = (if outcome = 6 then 0x30 else 0) ∧
        t.mem.read (0x1085 + 256 * k.val) = outcome
    let kept (t : State) : Prop := (t.pos p).findings = x.findings ∧ (t.pos p).reason = x.reason ∧
      (t.pos p).verdict =
        if t.known w ≠ c.base ∧ due t = true ∧ x.wear = false ∧ x.verdict = .cleared then .expired else x.verdict
    let mismatch (t : State) : Prop := (t.pos p).findings = 0x0020 ∧ (t.pos p).reason = .none ∧
      ((t.pos p).verdict = .rejected ∨ (t.pos p).verdict = .barred)
    let higher (v : Word32) : Nat := max rec.known.toNat v.toNat
    let reply (status : Byte) (data : List Byte) (ratio : Word16) (n : Nat) : State :=
      s.positionLine p (.reply status data ratio n)
    (c.confirming = false → ∀ data ratio n,
      let v := word32At data 0
      let t := reply 0 data ratio n
      (v.toNat = c.base.toNat + amount.toNat → ended t given (higher v) 1 ∧ kept t) ∧
      (v.toNat ≠ c.base.toNat + amount.toNat → ended t given (higher v) 2 ∧ mismatch t)) ∧
    (c.confirming = false → ∀ data ratio n, let t := reply 5 data ratio n
      ended t lost rec.known.toNat 3 ∧ kept t) ∧
    (c.confirming = false → ∀ status data ratio n, status ≠ 0 → status ≠ 5 → let t := reply status data ratio n
      ended t lost rec.known.toNat 4 ∧ mismatch t) ∧
    (c.confirming = false → (s.line x.applied.line).state ≠ .stuck → ∀ e n,
      s.positionLine p (.failure e n) = (s.setPos p { x with
        lastLineError := some e
        commit := some { c with confirming := true, retries := c.retries + n } }).placeLine x.applied.line
          { requester := .position p, address := x.applied.address, command := .readBlocks 5 1 }) ∧
    (c.confirming = true → ∀ data ratio n, byteAt data 0 = 1 →
      let v := word32At data 1
      let t := reply 0 data ratio n
      (v.toNat = c.base.toNat + amount.toNat → ended t given (higher v) 1 ∧ kept t) ∧
      (v.toNat ≠ c.base.toNat + amount.toNat → v = c.base → ended t back rec.known.toNat 5 ∧ kept t) ∧
      (v.toNat ≠ c.base.toNat + amount.toNat → v ≠ c.base → ended t given (higher v) 2 ∧ mismatch t)) ∧
    (c.confirming = true → ∀ status data ratio n, status ≠ 0 → let t := reply status data ratio n
      ended t { x.usage with unconfirmed := true } rec.known.toNat 6 ∧ kept t) ∧
    (c.confirming = true → ∀ e n, let t := s.positionLine p (.failure e n)
      ended t { x.usage with unconfirmed := true } rec.known.toNat 6 ∧ kept t ∧ (t.pos p).lastLineError = some e)

/-- R54, R12, R13, R14, R65, R63, R64, R66, R70, R71, R141: how a cycle goes on when its line work ends: an IDENTIFY reply
is taken into the context (R22), with no blocks for a tag status other than OK and PARTIAL, and the checks follow
(FindingsDecided); a failure is inconclusive LINK, the first missed roll call too; an unbound position whose IDENTIFY
meets no tag is VACANT without a channel and measures presence with one (that UID and class code go at entry to PRESENCE
is log 17, the model's reading); a CHALLENGE is judged against the key slot as it stands, and a confirmed one raises K
and goes on by the class's mode: to SCREEN without a measurement for NONE, NO_CHANNEL, SIGNATURE without a measurement
for a factory value of 0, or a measurement. R69, R111, R145, R121,
R55, R16, R17, R76: the hand-off: the wear flag is evaluated, the result is applied, the permits follow, a changed
retired list posts the device block, the items of the cycle are recorded, cycles completed rises by 1, the half is
posted, and each attached INSPECT ends OK with the outcome. -/
def Obligations.CycleGoesOn : Prop :=
  (∀ (s : State) (p : PosId) (c : CycleContext) (kind : ResultKind) (f : Word16) (reason : Reason) (lim : Limits),
    (s.pos p).cycle = some c →
    let x := s.pos p
    let worn := decide (x.boundUid ≠ none ∧ x.usageLimit ≠ 0 ∧ x.usageLimit.toNat ≤ (s.knownOf x).toNat)
    let r : Result := { kind := kind, concerned := x.boundUid, findings := f, reason := reason, limits := lim }
    let given := (s.setPos p { x with wear := worn }).applyResult p r
    let told := if given.retired = s.retired then given.evaluatePermits else given.evaluatePermits.postBlock
    let posted := (told.setPos p { given.pos p with
      clockRatio := c.ratio, tagTemp := if 7 ≤ c.n then clampTemp (tagTemperature c.blocks) else (given.pos p).tagTemp
      known := told.knownOf (given.pos p), cyclesCompleted := x.cyclesCompleted + 1, seq := .idle
      cycle := none }).postHalf p
    let y := posted.pos p
    let data : List Byte := [BitVec.ofNat 8 p.val, 1, kind.code, y.verdict.code] ++ bytes32 y.cycleNumber ++
      bytes16 y.findings ++ [y.reason.code, y.uid.code] ++ bytes64 y.uid.value ++ bytes16 y.clockRatio ++
      bytes32 y.deviation
    s.endCycle p kind f reason lim = c.tasks.foldl (fun t k => t.complete k .ok data) posted ∧
    y.findings = f ∧ y.reason = reason ∧ y.cycleNumber = x.cycleNumber ∧ y.edition = x.edition + 2 ∧
    [ResultKind.findings, .clean, .inconclusive, .absent].map ResultKind.code = [1, 2, 3, 4]) ∧
  ∀ (s : State) (p : PosId) (c : CycleContext), (s.pos p).seq = .cycle → (s.pos p).cycle = some c →
    let x := s.pos p
    let inconclusive (t : State) (y : Position) (reason : Reason) : Prop :=
      t.pos p = { y with
        findings := 0, reason := reason, seq := .idle, cycle := none, cyclesCompleted := x.cyclesCompleted + 1,
        clockRatio := c.ratio, edition := x.edition + 2, pulseDirty := false, wear := (t.pos p).wear,
        known := (t.pos p).known, tagTemp := (t.pos p).tagTemp } ∧
      t.identity = s.identity ∧ t.retired = s.retired
    (∀ e n, c.stage = .identify → e ≠ .noReply →
      inconclusive (s.positionLine p (.failure e n)) { x with lastLineError := some e } .link) ∧
    (∀ (status : Byte) (data : List Byte) (ratio : Word16) (n : Nat), c.stage = .identify →
      let carries := status = 0 ∨ status = 6
      s.positionLine p (.reply status data ratio n) = (s.setPos p { x with
        missed := 0
        cycle := some { c with
          stage := .checks, status := some status, n := if carries then (byteAt data 0).toNat else 0,
          blocks := if carries then data.drop 1 else [], ratio := ratio, identifyRetries := n } }).checks p) ∧
    (∀ e n, c.stage = .challenge →
      inconclusive (s.positionLine p (.failure e n)) { x with lastLineError := some e } .link) ∧
    (∀ n, c.stage = .identify → x.boundUid ≠ none → x.missed = 0 →
      let t := s.positionLine p (.failure .noReply n)
      (t.pos p).missed = 1 ∧ (t.pos p).reason = .link ∧ (t.pos p).findings = 0 ∧ (t.pos p).verdict = x.verdict ∧
      (t.pos p).uid = x.uid ∧ (t.pos p).seq = .idle ∧ (t.pos p).lastLineError = some .noReply) ∧
    (∀ n, c.stage = .identify → x.boundUid ≠ none → x.missed ≠ 0 →
      let t := s.positionLine p (.failure .noReply n)
      (t.pos p).verdict = .vacant ∧ (t.pos p).missed = 0 ∧ (t.pos p).boundUid = none ∧ (t.pos p).pendingUse = 0 ∧
      (t.pos p).inFlight = 0 ∧ (t.pos p).lost = x.lost + x.pendingUse.setWidth 32 + x.inFlight.setWidth 32 ∧
      ((t.pos p).seq = .idle ↔ x.applied.channel = none)) ∧
    (∀ n, c.stage = .identify → x.boundUid = none → x.verdict ≠ .barred →
      let t := s.positionLine p (.failure .noReply n)
      (x.applied.channel = none → (t.pos p).verdict = .vacant ∧ (t.pos p).grace = 0 ∧ (t.pos p).seq = .idle) ∧
      (∀ ch, x.applied.channel = some ch →
        t.meas = { s.meas with queue := s.meas.queue ++ [{ channel := ch, kind := .presence p }] } ∧
        (t.pos p).verdict = x.verdict ∧ (t.pos p).seq = .cycle)) ∧
    ∀ (status : Byte) (data : List Byte) (ratio : Word16) (n : Nat) (k : ClassRecord), c.stage = .challenge →
      c.classCopy = some k →
      let t := s.positionLine p (.reply status data ratio n)
      (¬ (s.keys.slots[k.keySlot.val]).isValid = true → inconclusive t x .noKey) ∧
      ∀ key, s.keys.slots[k.keySlot.val] = .valid key →
        let genuine := status = 0 ∧ word64At data 0 =
          Config.response (Config.partKey key (tagUid c.blocks)) (c.challenge.getD 0) (tagCounter c.blocks)
        (¬ genuine → (t.pos p).findings = c.findings ||| 0x0080 ∧ (t.pos p).seq = .idle ∧
          ((t.pos p).verdict = .rejected ∨ (t.pos p).verdict = .barred) ∧ t.identity.map (·.known) =
            s.identity.map (·.known)) ∧
        (genuine →
          let count := tagCounter c.blocks
          let taken (f : Word16) : State := ({ s with
            identity := s.identity.map (fun (r : IdentityRecord) =>
              if x.boundUid = some r.uid then { r with known := if r.known.toNat < count.toNat then count else r.known }
              else r) } : State).setPos p { x with cycle := some { c with challengeRetries := n, findings := f } }
          let screened (g : Word16) : Prop :=
            let f := g ||| screenFindings s.rules.toList {
              deviation := c.deviation.map BitVec.toInt
              r20 := c.r20.map BitVec.toInt
              clock := c.ratio.toNat
              temp := (c.temp.getD (clampTemp (tagTemperature c.blocks))).toInt
              usageThousands := (count.toNat / 1000 : Nat)
              pending := x.pendingUse.toNat
              retries := (c.identifyRetries + n : Nat)
              classCode := tagClass c.blocks }
            (f = 0 → t = (taken g).endCycle p .clean 0 .none k.limits) ∧
            (f ≠ 0 → t = (taken g).endCycle p .findings f .none k.limits)
          (k.mode = .none → screened c.findings) ∧
          (k.mode = .required → x.applied.channel = none →
            t = (taken c.findings).endCycle p .inconclusive 0 .noChannel k.limits) ∧
          (k.mode = .required → x.applied.channel ≠ none → tagFactory c.blocks = 0 →
            screened (c.findings ||| 0x0200))) ∧
        ∀ w rec ch, genuine → x.boundUid = some w → s.record w = some rec → k.mode = .required →
          x.applied.channel = some ch → tagFactory c.blocks ≠ 0 →
          (t.known w).toNat = max rec.known.toNat (tagCounter c.blocks).toNat ∧ (t.pos p).seq = .cycle ∧
          t.meas = { s.meas with queue := s.meas.queue ++ [{
            channel := ch
            kind := .signature p x.applied.tempSource (tagTemperature c.blocks) (tagFactory c.blocks)
              (tagCounter c.blocks) k.alpha k.beta k.tau }] }

/-- R20, R56, R58 to R63, R109, R111, R149, R150: the findings of the format checks, and what a reply that fails them
does to the binding: the bound UID shown intact keeps it, with the class code of its record; any other departs, and the
UID held is none. R57, R15, R111, R120, R143: otherwise the identity is settled: the bound UID again is no arrival; any
other departs the old binding, is sighted, keeps the usage limit where it is bound, and makes ARRIVING with streaks 0
and grace refilled, of which the permits are told. Then the retired, contest, class, usage and clock checks, and how the
cycle goes on after them, with a CHALLENGE or, on a STUCK line (R43, R65), inconclusive LINK; the resolution of an
UNCONFIRMED commit with the wear flag; and the screening groups that fire. (That UID and class code change when the
identity is settled, and not at the hand-off, is log 17, the model's reading.) -/
def Obligations.FindingsDecided : Prop :=
  (∀ u : Word64, let nibble (i : Nat) : Nat := u.toNat / 16 ^ i % 16
    (uidWellFormed u = true ↔ (nibble 1 + nibble 2 + nibble 3 + nibble 4 + nibble 5 + nibble 6 + nibble 7 + nibble 8 +
      nibble 9 + nibble 10 + nibble 11 + nibble 12 + nibble 13 + nibble 14 + nibble 15) % 16 = nibble 0)) ∧
  (∀ c : CycleContext,
    let bad := uidWellFormed (tagUid c.blocks) = false
    (c.n < 2 → formatFindings c = 0x0002) ∧ (2 ≤ c.n → c.n < 7 → bad → formatFindings c = 0x0003) ∧
    (2 ≤ c.n → c.n < 7 → ¬ bad → formatFindings c = 0x0002) ∧ (7 ≤ c.n → bad → formatFindings c = 0x0001) ∧
    (7 ≤ c.n → ¬ bad → formatFindings c = 0)) ∧
  (∀ (s : State) (p : PosId) (c : CycleContext), (s.pos p).cycle = some c →
    let x := s.pos p
    let u := tagUid c.blocks
    let f := formatFindings c
    let limits : Limits := { trip := 1, recover := 0, forgive := 255, latch := 3 }
    let kept := 2 ≤ c.n ∧ x.boundUid = some u
    let ended (t : State) : State := if x.boundUid = none then t else t.endBinding p
    (f ≠ 0 → kept → s.checks p = (s.setPos p { x with
      classCode := ((s.record u).map (fun r => r.classCode)).getD 0 }).endCycle p .findings f .none limits) ∧
    (f ≠ 0 → ¬ kept →
      let d := ended (s.leaveContests p none)
      s.checks p = (d.setPos p { d.pos p with uid := .none, classCode := 0 }).endCycle p .findings f .none limits) ∧
    (f = 0 →
      let t := s.settleIdentity p
      let seen (v : State) : State := v.sight p u (tagClass c.blocks) (tagCounter c.blocks)
      let limit (y : Position) : Word32 := if y.boundUid = none then 0 else tagLimit c.blocks
      s.checks p = t.runChecks p ∧
      (x.boundUid = some u →
        let v := seen (s.leaveContests p (some u))
        let y := v.pos p
        t = v.setPos p { y with classCode := tagClass c.blocks, usageLimit := limit y }) ∧
      (x.boundUid ≠ some u →
        let v := seen (ended (s.leaveContests p (some u)))
        let y := v.pos p
        t = (v.setPos p { y with
          classCode := tagClass c.blocks, usageLimit := limit y, verdict := .arriving, doubt := 0, clean := 0,
          grace := if x.applied.cycleInput = none then 0 else x.applied.grace }).evaluatePermits))) ∧
  (∀ (s : State) (p : PosId) (c : CycleContext), (s.pos p).cycle = some c → formatFindings c = 0 →
    let t := s.checks p
    (tagUid c.blocks ∈ s.retired → (t.pos p).findings.getLsbD 2 = true ∧ (t.pos p).seq = .idle ∧
      ((t.pos p).verdict = .rejected ∨ (t.pos p).verdict = .barred)) ∧
    (tagClass c.blocks ∉ (s.pos p).applied.accept → (t.pos p).findings.getLsbD 4 = true ∧ (t.pos p).seq = .idle)) ∧
  (∀ (s : State) (p : PosId) (c : CycleContext), (s.pos p).cycle = some c → formatFindings c = 0 →
    (s.pos p).seq = .cycle →
    let x := s.pos p
    let u := tagUid c.blocks
    let count := (tagCounter c.blocks).toNat
    let t := s.checks p
    let own (r : IdentityRecord) : Prop := r.bound = some p ∧ x.boundUid = some u
    let offBand (k : ClassRecord) : Prop := c.ratio.toNat < k.bandLo.toNat ∨ k.bandHi.toNat < c.ratio.toNat
    (∀ r q, s.record u = some r → r.bound = some q → q ≠ p →
      (t.pos p).findings.getLsbD 3 = true ∧ (t.pos p).findings.getLsbD 5 = false ∧
      (t.pos p).findings.getLsbD 6 = false ∧ (t.pos p).seq = .idle ∧ (t.pos p).uid = .read u) ∧
    (∀ r, s.record u = some r → own r → r.contest ≠ [] →
      (t.pos p).findings.getLsbD 3 = true ∧ (t.pos p).seq = .idle) ∧
    ((s.record u = none ∨ ∃ r, s.record u = some r ∧ (own r ∨ r.bound = none) ∧ r.contest = []) →
      (t.pos p).seq = .idle → (t.pos p).findings.getLsbD 3 = false) ∧
    (∀ r, s.record u = some r → own r ∨ r.bound = none → x.unconfirmed = false →
      t.known u = r.known ∧ (count < r.known.toNat → (t.pos p).findings.getLsbD 6 = true ∧ (t.pos p).seq = .idle) ∧
      (r.known.toNat ≤ count → (t.pos p).seq = .idle → (t.pos p).findings.getLsbD 6 = false)) ∧
    (∀ r, s.record u = some r → own r → x.unconfirmed = true → count ≠ r.known.toNat + x.inFlight.toNat →
      tagCounter c.blocks ≠ r.known → (t.pos p).findings.getLsbD 5 = true ∧ (t.pos p).seq = .idle) ∧
    (∀ k, s.classOf (tagClass c.blocks) = some k → (t.pos p).seq = .idle → (t.pos p).findings &&& 0x00FF ≠ 0 →
      ((t.pos p).findings.getLsbD 8 = true ↔ offBand k)) ∧
    (s.classOf (tagClass c.blocks) = none → (t.pos p).seq = .idle ∧ (t.pos p).findings.getLsbD 8 = false) ∧
    ∀ r, s.record u = some r → own r → r.contest = [] → x.unconfirmed = false → u ∉ s.retired →
      tagClass c.blocks ∈ x.applied.accept → r.known.toNat ≤ count →
      (s.classOf (tagClass c.blocks) = none → (t.pos p).findings = 0 ∧ (t.pos p).reason = .noClass ∧
        (t.pos p).seq = .idle ∧ (t.pos p).verdict = x.verdict) ∧
      ∀ k, s.classOf (tagClass c.blocks) = some k →
        (¬ (s.keys.slots[k.keySlot.val]).isValid = true → (t.pos p).findings = 0 ∧ (t.pos p).reason = .noKey ∧
          (t.pos p).seq = .idle ∧ (t.pos p).verdict = x.verdict) ∧
        ((s.keys.slots[k.keySlot.val]).isValid = true → (s.line x.applied.line).state = .stuck →
          (t.pos p).findings = 0 ∧ (t.pos p).reason = .link ∧ (t.pos p).lastLineError = some .stuck ∧
          (t.pos p).seq = .idle ∧ (t.pos p).cycle = none ∧ (t.pos p).verdict = x.verdict) ∧
        ((s.keys.slots[k.keySlot.val]).isValid = true → (s.line x.applied.line).state ≠ .stuck →
          (t.pos p).seq = .cycle ∧ ∃ e v, (t.pos p).cycle = some e ∧ e.stage = .challenge ∧ e.classCopy = some k ∧
            e.challenge = some v ∧ (offBand k → e.findings = 0x0100) ∧ (¬ offBand k → e.findings = 0) ∧
            (t.line x.applied.line).queue = (s.line x.applied.line).queue ++
              [{ requester := .position p, address := x.applied.address, command := .challenge v }])) ∧
  (∀ (s : State) (p : PosId) (w : Word64) (v : Word32) (rec : IdentityRecord), s.record w = some rec →
    (s.pos p).unconfirmed = true →
    let x := s.pos p
    let t := (s.resolveCommit p w v).1
    let finding := (s.resolveCommit p w v).2
    let sum := x.pendingUse.toNat + x.inFlight.toNat
    let added := rec.known.toNat + x.inFlight.toNat
    (t.pos p).wear =
      decide (x.boundUid ≠ none ∧ x.usageLimit ≠ 0 ∧ x.usageLimit.toNat ≤ (t.knownOf x).toNat) ∧
    let given := { x.usage with committed := x.committed + x.inFlight.setWidth 32, inFlight := 0, unconfirmed := false }
    (v.toNat = added → finding = 0 ∧ (t.pos p).usage = given ∧ t.known w = v) ∧
    (v.toNat ≠ added → v = rec.known → finding = 0 ∧ t.known w = rec.known ∧ (t.pos p).usage = { x.usage with
      pendingUse := BitVec.ofNat 16 (min 65535 sum), dropped := x.dropped + BitVec.ofNat 32 (sum - 65535),
      inFlight := 0, unconfirmed := false }) ∧
    (v.toNat ≠ added → v ≠ rec.known → finding = 0x0020 ∧ (t.pos p).usage = given ∧
      (t.known w).toNat = max rec.known.toNat v.toNat)) ∧
  ∀ (rules : List Rule) (i : ScreenInputs) (g : Fin 4),
    let hit (r : Rule) : Prop := ∃ v, i.value r.quantity = some v ∧ (r.classCode = 0 ∨ r.classCode = i.classCode) ∧
      (r.sense = .inside → r.lo.toInt ≤ v ∧ v ≤ r.hi.toInt) ∧ (r.sense = .outside → v < r.lo.toInt ∨ r.hi.toInt < v)
    ((screenFindings rules i).getLsbD (12 + g.val) = true ↔
      (∃ r ∈ rules, r.enabled = true ∧ r.group = g) ∧ ∀ r ∈ rules, r.enabled = true → r.group = g → hit r) ∧
    ∀ b : Nat, b < 12 → (screenFindings rules i).getLsbD b = false

end Statements
end

