-- ==== Sys2Proof/Laws/Memory.lean ====
section
/-! SUPPORT. The exchange memory: every write keeps the canonical form, a byte reads as the last write left it, and
equal reads make equal memories. -/
namespace Sys2Proof.Machine

/-! ### Reading -/

theorem Memory.read_of_lt {m : Memory} {a : Nat} (h : ∀ c ∈ m, a < c.1) : m.read a = Memory.unlisted := by
  induction m with
  | nil => rfl
  | cons c m ih =>
    have hc : a < c.1 := h c (List.mem_cons_self ..)
    have : ¬ c.1 = a := by omega
    simp only [Memory.read, this, if_false]
    exact ih fun d hd => h d (List.mem_cons_of_mem _ hd)

theorem Memory.read_of_not_mem {m : Memory} {a : Nat} (h : ∀ c ∈ m, c.1 ≠ a) : m.read a = Memory.unlisted := by
  induction m with
  | nil => rfl
  | cons c m ih =>
    simp only [Memory.read, h c (List.mem_cons_self ..), if_false]
    exact ih fun d hd => h d (List.mem_cons_of_mem _ hd)

theorem Memory.read_append {m n : Memory} {a : Nat} :
    (m ++ n).read a = if ∃ c ∈ m, c.1 = a then m.read a else n.read a := by
  induction m with
  | nil => simp
  | cons c m ih =>
    by_cases h : c.1 = a
    · simp [Memory.read, h]
    · simp [Memory.read, h, ih]

theorem Memory.read_filter {m : Memory} {a : Nat} (q : Nat → Bool) :
    Memory.read (m.filter (fun c => q c.1)) a = if q a then m.read a else Memory.unlisted := by
  induction m with
  | nil => simp [Memory.read]
  | cons c m ih =>
    by_cases hq : q c.1
    · by_cases h : c.1 = a
      · subst h; simp [Memory.read, hq]
      · simp only [List.filter_cons, hq, if_true, Memory.read, h, if_false]; exact ih
    · by_cases h : c.1 = a
      · subst h; simp only [List.filter_cons, hq, if_false, Bool.false_eq_true]; rw [ih]; simp [hq]
      · simp only [List.filter_cons, hq, Bool.false_eq_true, if_false, Memory.read, h]; exact ih

/-! ### The canonical form -/

/-- The form without the bound on addresses: rising, nothing listed that an unlisted byte reads as. -/
theorem Memory.wf_iff {m : Memory} :
    m.wf = true ↔ m.Pairwise (fun c d => c.1 < d.1) ∧ ∀ c ∈ m, c.2 ≠ Memory.unlisted ∧ c.1 < Memory.size := by
  induction m with
  | nil => simp [Memory.wf]
  | cons c m ih =>
    obtain ⟨a, b⟩ := c
    simp only [Memory.wf, Bool.and_eq_true, decide_eq_true_eq, List.all_eq_true, ih, List.pairwise_cons,
      List.mem_cons, forall_eq_or_imp]
    constructor
    · rintro ⟨⟨⟨h1, h2⟩, h3⟩, h4, h5⟩
      exact ⟨⟨h3, h4⟩, ⟨h1, h2⟩, h5⟩
    · rintro ⟨⟨h3, h4⟩, ⟨h1, h2⟩, h5⟩
      exact ⟨⟨⟨h1, h2⟩, h3⟩, h4, h5⟩

theorem Memory.cells_mem {a : Nat} {bs : List Byte} {c : Host.Cell} (h : c ∈ Memory.cells a bs) :
    a ≤ c.1 ∧ c.1 < a + bs.length ∧ c.2 ≠ Memory.unlisted ∧ c.1 < Memory.size := by
  induction bs generalizing a with
  | nil => simp [Memory.cells] at h
  | cons b bs ih =>
    simp only [Memory.cells] at h
    split at h
    · obtain ⟨h1, h2, h3, h4⟩ := ih h
      simp only [List.length_cons]
      exact ⟨by omega, by omega, h3, h4⟩
    · rename_i hb
      rcases List.mem_cons.1 h with rfl | h
      · refine ⟨Nat.le_refl _, by simp, fun e => hb (Or.inl e), by omega⟩
      · obtain ⟨h1, h2, h3, h4⟩ := ih h
        simp only [List.length_cons]
        exact ⟨by omega, by omega, h3, h4⟩

theorem Memory.cells_pairwise (a : Nat) (bs : List Byte) :
    (Memory.cells a bs).Pairwise (fun c d => c.1 < d.1) := by
  induction bs generalizing a with
  | nil => simp [Memory.cells]
  | cons b bs ih =>
    simp only [Memory.cells]
    split
    · exact ih _
    · exact List.pairwise_cons.2 ⟨fun d hd => by have := (Memory.cells_mem hd).1; omega, ih _⟩

/-- Every write keeps the canonical form. -/
theorem Memory.wf_write {m : Memory} (h : m.wf = true) (a : Nat) (bs : List Byte) : (m.write a bs).wf = true := by
  rw [Memory.wf_iff] at h ⊢
  obtain ⟨hp, hv⟩ := h
  refine ⟨?_, ?_⟩
  · refine List.pairwise_append.2 ⟨List.pairwise_append.2 ⟨hp.filter _, Memory.cells_pairwise _ _, ?_⟩,
      hp.filter _, ?_⟩
    · intro c hc d hd
      have h1 := (List.mem_filter.1 hc).2
      have h2 := (Memory.cells_mem hd).1
      simp only [decide_eq_true_eq] at h1; omega
    · intro c hc d hd
      have h2 := (List.mem_filter.1 hd).2
      simp only [decide_eq_true_eq] at h2
      rcases List.mem_append.1 hc with hc | hc
      · have h1 := (List.mem_filter.1 hc).2
        simp only [decide_eq_true_eq] at h1; omega
      · have h1 := (Memory.cells_mem hc).2.1
        omega
  · intro c hc
    rcases List.mem_append.1 hc with hc | hc
    · rcases List.mem_append.1 hc with hc | hc
      · exact hv c (List.mem_filter.1 hc).1
      · exact (Memory.cells_mem hc).2.2
    · exact hv c (List.mem_filter.1 hc).1

theorem Memory.wf_writeWord {m : Memory} (h : m.wf = true) (a : Nat) (w : Word16) : (m.writeWord a w).wf = true :=
  Memory.wf_write h _ _

/-! ### Reading after a write -/

theorem Memory.read_cells {a x : Nat} {bs : List Byte} (hx : x < Memory.size) :
    (Memory.cells a bs).read x = if a ≤ x ∧ x < a + bs.length then bs.getD (x - a) Memory.unlisted
      else Memory.unlisted := by
  induction bs generalizing a with
  | nil => have : ¬ (a ≤ x ∧ x < a + 0) := by omega
           simp only [Memory.cells, Memory.read, List.length_nil, this, if_false]
  | cons b bs ih =>
    simp only [Memory.cells]
    split
    · rename_i hb
      rw [ih]
      by_cases hax : a = x
      · subst hax
        have : b = Memory.unlisted := hb.resolve_right (by omega)
        have h0 : ¬ (a + 1 ≤ a ∧ a < a + 1 + bs.length) := by omega
        rw [if_neg h0]
        simp [this]
      · by_cases hin : a ≤ x ∧ x < a + (b :: bs).length
        · have h1 : a + 1 ≤ x ∧ x < a + 1 + bs.length := by simp only [List.length_cons] at hin; omega
          rw [if_pos hin, if_pos h1]
          obtain ⟨k, hk⟩ : ∃ k, x - a = k + 1 := ⟨x - a - 1, by omega⟩
          have : x - (a + 1) = k := by omega
          simp [hk, this]
        · have h1 : ¬ (a + 1 ≤ x ∧ x < a + 1 + bs.length) := by simp only [List.length_cons] at hin; omega
          rw [if_neg hin, if_neg h1]
    · by_cases hax : a = x
      · subst hax
        simp [Memory.read]
      · simp only [Memory.read, hax, if_false]
        rw [ih]
        by_cases hin : a ≤ x ∧ x < a + (b :: bs).length
        · have h1 : a + 1 ≤ x ∧ x < a + 1 + bs.length := by simp only [List.length_cons] at hin; omega
          rw [if_pos hin, if_pos h1]
          obtain ⟨k, hk⟩ : ∃ k, x - a = k + 1 := ⟨x - a - 1, by omega⟩
          have : x - (a + 1) = k := by omega
          simp [hk, this]
        · have h1 : ¬ (a + 1 ≤ x ∧ x < a + 1 + bs.length) := by simp only [List.length_cons] at hin; omega
          rw [if_neg hin, if_neg h1]

/-- A byte of the memory after a write: the byte written there, or what it was. -/
theorem Memory.read_write (m : Memory) (a : Nat) (bs : List Byte) {x : Nat} (hx : x < Memory.size) :
    (m.write a bs).read x =
      if a ≤ x ∧ x < a + bs.length then bs.getD (x - a) Memory.unlisted else m.read x := by
  have hf1 : ∀ y, Memory.read (m.filter (fun c => decide (c.1 < a))) y
      = if y < a then m.read y else Memory.unlisted := by
    intro y; have := Memory.read_filter (m := m) (a := y) (fun n => decide (n < a)); simpa using this
  have hf2 : ∀ y, Memory.read (m.filter (fun c => decide (a + bs.length ≤ c.1))) y
      = if a + bs.length ≤ y then m.read y else Memory.unlisted := by
    intro y
    have := Memory.read_filter (m := m) (a := y) (fun n => decide (a + bs.length ≤ n)); simpa using this
  unfold Memory.write
  rw [List.append_assoc, Memory.read_append, Memory.read_append, hf1, hf2, Memory.read_cells hx]
  by_cases h1 : x < a
  · have hn : ¬ (a ≤ x ∧ x < a + bs.length) := by omega
    have hn2 : ¬ (a + bs.length ≤ x) := by omega
    have hc : ¬ ∃ c ∈ Memory.cells a bs, c.1 = x := by
      rintro ⟨c, hc, rfl⟩; have := (Memory.cells_mem hc).1; omega
    by_cases he : ∃ c ∈ m.filter (fun c => decide (c.1 < a)), c.1 = x
    · simp only [he, h1, hn, if_true, if_false]
    · have : m.read x = Memory.unlisted := by
        apply Memory.read_of_not_mem
        intro c hc e
        exact he ⟨c, List.mem_filter.2 ⟨hc, by simp [e, h1]⟩, e⟩
      simp only [he, hc, hn, hn2, if_false, this]
  · have he : ¬ ∃ c ∈ m.filter (fun c => decide (c.1 < a)), c.1 = x := by
      rintro ⟨c, hc, rfl⟩
      have := (List.mem_filter.1 hc).2
      simp only [decide_eq_true_eq] at this; omega
    simp only [he, if_false]
    by_cases h2 : a ≤ x ∧ x < a + bs.length
    · have hn2 : ¬ (a + bs.length ≤ x) := by omega
      by_cases hc : ∃ c ∈ Memory.cells a bs, c.1 = x
      · simp only [hc, h2, if_true, and_self]
      · have : (Memory.cells a bs).read x = Memory.unlisted := by
          apply Memory.read_of_not_mem
          intro c hc' e
          exact hc ⟨c, hc', e⟩
        rw [Memory.read_cells hx, if_pos h2] at this
        simp only [hc, hn2, if_false, h2, and_self, if_true, this]
    · have hn2 : a + bs.length ≤ x := by omega
      have hc : ¬ ∃ c ∈ Memory.cells a bs, c.1 = x := by
        rintro ⟨c, hc, rfl⟩; have := (Memory.cells_mem hc); omega
      simp only [hc, hn2, h2, if_false, if_true]

/-- A byte outside the bytes written is as before, wherever it lies. -/
theorem Memory.read_write_ne (m : Memory) (a : Nat) (bs : List Byte) {x : Nat}
    (hx : ¬ (a ≤ x ∧ x < a + bs.length)) (hs : x < Memory.size) : (m.write a bs).read x = m.read x := by
  rw [Memory.read_write m a bs hs, if_neg hx]

/-- Beyond the end of the memory nothing is listed. -/
theorem Memory.read_beyond {m : Memory} (h : m.wf = true) {x : Nat} (hx : Memory.size ≤ x) :
    m.read x = Memory.unlisted := by
  apply Memory.read_of_not_mem
  intro c hc e
  have := ((Memory.wf_iff.1 h).2 c hc).2
  omega

/-- Equal memories are equal data: two memories in canonical form that read alike are one. -/
theorem Memory.ext_of_read {m n : Memory} (hm : m.wf = true) (hn : n.wf = true)
    (h : ∀ a, m.read a = n.read a) : m = n := by
  induction m generalizing n with
  | nil =>
    cases n with
    | nil => rfl
    | cons d n =>
      have h1 := h d.1
      have h2 := ((Memory.wf_iff.1 hn).2 d (List.mem_cons_self ..)).1
      simp only [Memory.read, if_true] at h1
      exact absurd h1.symm h2
  | cons c m ih =>
    have hc := ((Memory.wf_iff.1 hm).2 c (List.mem_cons_self ..)).1
    have hml : ∀ e ∈ m, c.1 < e.1 := (List.pairwise_cons.1 (Memory.wf_iff.1 hm).1).1
    cases n with
    | nil =>
      have h1 := h c.1
      simp only [Memory.read, if_true] at h1
      exact absurd h1 hc
    | cons d n =>
      have hd := ((Memory.wf_iff.1 hn).2 d (List.mem_cons_self ..)).1
      have hnl : ∀ e ∈ n, d.1 < e.1 := (List.pairwise_cons.1 (Memory.wf_iff.1 hn).1).1
      have e1 : c.1 = d.1 := by
        rcases Nat.lt_trichotomy c.1 d.1 with hlt | he | hlt
        · have h1 := h c.1
          simp only [Memory.read, if_true] at h1
          have hne : ¬ d.1 = c.1 := by omega
          simp only [hne, if_false] at h1
          rw [Memory.read_of_lt (fun e he => by have := hnl e he; omega)] at h1
          exact absurd h1 hc
        · exact he
        · have h1 := h d.1
          simp only [Memory.read, if_true] at h1
          have hne : ¬ c.1 = d.1 := by omega
          simp only [hne, if_false] at h1
          rw [Memory.read_of_lt (fun e he => by have := hml e he; omega)] at h1
          exact absurd h1.symm hd
      have e2 : c.2 = d.2 := by
        have h1 := h c.1
        simpa only [Memory.read, if_true, e1] using h1
      have hm' : Memory.wf m = true := by
        obtain ⟨a, b⟩ := c; simp only [Memory.wf, Bool.and_eq_true] at hm; exact hm.2
      have hn' : Memory.wf n = true := by
        obtain ⟨a, b⟩ := d; simp only [Memory.wf, Bool.and_eq_true] at hn; exact hn.2
      have : m = n := by
        apply ih hm' hn'
        intro a
        have h1 := h a
        simp only [Memory.read, e1, e2] at h1
        by_cases hda : d.1 = a
        · subst hda
          rw [Memory.read_of_lt (fun e he => by have := hml e he; omega), Memory.read_of_lt hnl]
        · simpa only [hda, if_false] using h1
      obtain ⟨a, b⟩ := c
      obtain ⟨a', b'⟩ := d
      simp only at e1 e2
      rw [e1, e2, this]

end Sys2Proof.Machine
end

