-- ==== Sys2Proof/Laws/State.lean ====
section
/-! SUPPORT. What the basic updates of State leave as it is: one lemma per update and field, each true by definition,
so that no later proof unfolds a record update. -/
namespace Sys2Proof.Machine

@[simp] theorem State.setPos_power (s : State) (p : PosId) (x : Position) : (s.setPos p x).power = s.power := rfl
@[simp] theorem State.setPos_pending (s : State) (p : PosId) (x : Position) : (s.setPos p x).pending = s.pending := rfl
@[simp] theorem State.setPos_device (s : State) (p : PosId) (x : Position) : (s.setPos p x).device = s.device := rfl
@[simp] theorem State.setPos_clearing (s : State) (p : PosId) (x : Position) : (s.setPos p x).clearing = s.clearing := rfl
@[simp] theorem State.setPos_mem (s : State) (p : PosId) (x : Position) : (s.setPos p x).mem = s.mem := rfl
@[simp] theorem State.setPos_watch (s : State) (p : PosId) (x : Position) : (s.setPos p x).watch = s.watch := rfl
@[simp] theorem State.setPos_slots (s : State) (p : PosId) (x : Position) : (s.setPos p x).slots = s.slots := rfl
@[simp] theorem State.setPos_misuse (s : State) (p : PosId) (x : Position) : (s.setPos p x).misuse = s.misuse := rfl
@[simp] theorem State.setPos_attention (s : State) (p : PosId) (x : Position) : (s.setPos p x).attention = s.attention := rfl
@[simp] theorem State.setPos_attentionEnable (s : State) (p : PosId) (x : Position) : (s.setPos p x).attentionEnable = s.attentionEnable := rfl
@[simp] theorem State.setPos_blockEdition (s : State) (p : PosId) (x : Position) : (s.setPos p x).blockEdition = s.blockEdition := rfl
@[simp] theorem State.setPos_blockDirty (s : State) (p : PosId) (x : Position) : (s.setPos p x).blockDirty = s.blockDirty := rfl
@[simp] theorem State.setPos_settings (s : State) (p : PosId) (x : Position) : (s.setPos p x).settings = s.settings := rfl
@[simp] theorem State.setPos_settingsStatus (s : State) (p : PosId) (x : Position) : (s.setPos p x).settingsStatus = s.settingsStatus := rfl
@[simp] theorem State.setPos_settingsExamined (s : State) (p : PosId) (x : Position) : (s.setPos p x).settingsExamined = s.settingsExamined := rfl
@[simp] theorem State.setPos_settingsApplied (s : State) (p : PosId) (x : Position) : (s.setPos p x).settingsApplied = s.settingsApplied := rfl
@[simp] theorem State.setPos_lineA (s : State) (p : PosId) (x : Position) : (s.setPos p x).lineA = s.lineA := rfl
@[simp] theorem State.setPos_lineB (s : State) (p : PosId) (x : Position) : (s.setPos p x).lineB = s.lineB := rfl
@[simp] theorem State.setPos_meas (s : State) (p : PosId) (x : Position) : (s.setPos p x).meas = s.meas := rfl
@[simp] theorem State.setPos_levels (s : State) (p : PosId) (x : Position) : (s.setPos p x).levels = s.levels := rfl
@[simp] theorem State.setPos_pulses (s : State) (p : PosId) (x : Position) : (s.setPos p x).pulses = s.pulses := rfl
@[simp] theorem State.setPos_inhibitN (s : State) (p : PosId) (x : Position) : (s.setPos p x).inhibitN = s.inhibitN := rfl
@[simp] theorem State.setPos_identity (s : State) (p : PosId) (x : Position) : (s.setPos p x).identity = s.identity := rfl
@[simp] theorem State.setPos_evictions (s : State) (p : PosId) (x : Position) : (s.setPos p x).evictions = s.evictions := rfl
@[simp] theorem State.setPos_retired (s : State) (p : PosId) (x : Position) : (s.setPos p x).retired = s.retired := rfl
@[simp] theorem State.setPos_retiredDropped (s : State) (p : PosId) (x : Position) : (s.setPos p x).retiredDropped = s.retiredDropped := rfl
@[simp] theorem State.setPos_rules (s : State) (p : PosId) (x : Position) : (s.setPos p x).rules = s.rules := rfl
@[simp] theorem State.setPos_ruleLoads (s : State) (p : PosId) (x : Position) : (s.setPos p x).ruleLoads = s.ruleLoads := rfl
@[simp] theorem State.setPos_classes (s : State) (p : PosId) (x : Position) : (s.setPos p x).classes = s.classes := rfl
@[simp] theorem State.setPos_keys (s : State) (p : PosId) (x : Position) : (s.setPos p x).keys = s.keys := rfl
@[simp] theorem State.setPos_permits (s : State) (p : PosId) (x : Position) : (s.setPos p x).permits = s.permits := rfl
@[simp] theorem State.setPos_free (s : State) (p : PosId) (x : Position) : (s.setPos p x).free = s.free := rfl

@[simp] theorem State.modPos_power (s : State) (p : PosId) (f : Position → Position) : (s.modPos p f).power = s.power := rfl
@[simp] theorem State.modPos_pending (s : State) (p : PosId) (f : Position → Position) : (s.modPos p f).pending = s.pending := rfl
@[simp] theorem State.modPos_device (s : State) (p : PosId) (f : Position → Position) : (s.modPos p f).device = s.device := rfl
@[simp] theorem State.modPos_clearing (s : State) (p : PosId) (f : Position → Position) : (s.modPos p f).clearing = s.clearing := rfl
@[simp] theorem State.modPos_mem (s : State) (p : PosId) (f : Position → Position) : (s.modPos p f).mem = s.mem := rfl
@[simp] theorem State.modPos_watch (s : State) (p : PosId) (f : Position → Position) : (s.modPos p f).watch = s.watch := rfl
@[simp] theorem State.modPos_slots (s : State) (p : PosId) (f : Position → Position) : (s.modPos p f).slots = s.slots := rfl
@[simp] theorem State.modPos_misuse (s : State) (p : PosId) (f : Position → Position) : (s.modPos p f).misuse = s.misuse := rfl
@[simp] theorem State.modPos_attention (s : State) (p : PosId) (f : Position → Position) : (s.modPos p f).attention = s.attention := rfl
@[simp] theorem State.modPos_attentionEnable (s : State) (p : PosId) (f : Position → Position) : (s.modPos p f).attentionEnable = s.attentionEnable := rfl
@[simp] theorem State.modPos_blockEdition (s : State) (p : PosId) (f : Position → Position) : (s.modPos p f).blockEdition = s.blockEdition := rfl
@[simp] theorem State.modPos_blockDirty (s : State) (p : PosId) (f : Position → Position) : (s.modPos p f).blockDirty = s.blockDirty := rfl
@[simp] theorem State.modPos_settings (s : State) (p : PosId) (f : Position → Position) : (s.modPos p f).settings = s.settings := rfl
@[simp] theorem State.modPos_settingsStatus (s : State) (p : PosId) (f : Position → Position) : (s.modPos p f).settingsStatus = s.settingsStatus := rfl
@[simp] theorem State.modPos_settingsExamined (s : State) (p : PosId) (f : Position → Position) : (s.modPos p f).settingsExamined = s.settingsExamined := rfl
@[simp] theorem State.modPos_settingsApplied (s : State) (p : PosId) (f : Position → Position) : (s.modPos p f).settingsApplied = s.settingsApplied := rfl
@[simp] theorem State.modPos_lineA (s : State) (p : PosId) (f : Position → Position) : (s.modPos p f).lineA = s.lineA := rfl
@[simp] theorem State.modPos_lineB (s : State) (p : PosId) (f : Position → Position) : (s.modPos p f).lineB = s.lineB := rfl
@[simp] theorem State.modPos_meas (s : State) (p : PosId) (f : Position → Position) : (s.modPos p f).meas = s.meas := rfl
@[simp] theorem State.modPos_levels (s : State) (p : PosId) (f : Position → Position) : (s.modPos p f).levels = s.levels := rfl
@[simp] theorem State.modPos_pulses (s : State) (p : PosId) (f : Position → Position) : (s.modPos p f).pulses = s.pulses := rfl
@[simp] theorem State.modPos_inhibitN (s : State) (p : PosId) (f : Position → Position) : (s.modPos p f).inhibitN = s.inhibitN := rfl
@[simp] theorem State.modPos_identity (s : State) (p : PosId) (f : Position → Position) : (s.modPos p f).identity = s.identity := rfl
@[simp] theorem State.modPos_evictions (s : State) (p : PosId) (f : Position → Position) : (s.modPos p f).evictions = s.evictions := rfl
@[simp] theorem State.modPos_retired (s : State) (p : PosId) (f : Position → Position) : (s.modPos p f).retired = s.retired := rfl
@[simp] theorem State.modPos_retiredDropped (s : State) (p : PosId) (f : Position → Position) : (s.modPos p f).retiredDropped = s.retiredDropped := rfl
@[simp] theorem State.modPos_rules (s : State) (p : PosId) (f : Position → Position) : (s.modPos p f).rules = s.rules := rfl
@[simp] theorem State.modPos_ruleLoads (s : State) (p : PosId) (f : Position → Position) : (s.modPos p f).ruleLoads = s.ruleLoads := rfl
@[simp] theorem State.modPos_classes (s : State) (p : PosId) (f : Position → Position) : (s.modPos p f).classes = s.classes := rfl
@[simp] theorem State.modPos_keys (s : State) (p : PosId) (f : Position → Position) : (s.modPos p f).keys = s.keys := rfl
@[simp] theorem State.modPos_permits (s : State) (p : PosId) (f : Position → Position) : (s.modPos p f).permits = s.permits := rfl
@[simp] theorem State.modPos_free (s : State) (p : PosId) (f : Position → Position) : (s.modPos p f).free = s.free := rfl

@[simp] theorem State.setLine_power (s : State) (l : LineId) (x : LineCtl) : (s.setLine l x).power = s.power := by cases l <;> rfl
@[simp] theorem State.setLine_pending (s : State) (l : LineId) (x : LineCtl) : (s.setLine l x).pending = s.pending := by cases l <;> rfl
@[simp] theorem State.setLine_device (s : State) (l : LineId) (x : LineCtl) : (s.setLine l x).device = s.device := by cases l <;> rfl
@[simp] theorem State.setLine_clearing (s : State) (l : LineId) (x : LineCtl) : (s.setLine l x).clearing = s.clearing := by cases l <;> rfl
@[simp] theorem State.setLine_mem (s : State) (l : LineId) (x : LineCtl) : (s.setLine l x).mem = s.mem := by cases l <;> rfl
@[simp] theorem State.setLine_watch (s : State) (l : LineId) (x : LineCtl) : (s.setLine l x).watch = s.watch := by cases l <;> rfl
@[simp] theorem State.setLine_slots (s : State) (l : LineId) (x : LineCtl) : (s.setLine l x).slots = s.slots := by cases l <;> rfl
@[simp] theorem State.setLine_misuse (s : State) (l : LineId) (x : LineCtl) : (s.setLine l x).misuse = s.misuse := by cases l <;> rfl
@[simp] theorem State.setLine_attention (s : State) (l : LineId) (x : LineCtl) : (s.setLine l x).attention = s.attention := by cases l <;> rfl
@[simp] theorem State.setLine_attentionEnable (s : State) (l : LineId) (x : LineCtl) : (s.setLine l x).attentionEnable = s.attentionEnable := by cases l <;> rfl
@[simp] theorem State.setLine_blockEdition (s : State) (l : LineId) (x : LineCtl) : (s.setLine l x).blockEdition = s.blockEdition := by cases l <;> rfl
@[simp] theorem State.setLine_blockDirty (s : State) (l : LineId) (x : LineCtl) : (s.setLine l x).blockDirty = s.blockDirty := by cases l <;> rfl
@[simp] theorem State.setLine_settings (s : State) (l : LineId) (x : LineCtl) : (s.setLine l x).settings = s.settings := by cases l <;> rfl
@[simp] theorem State.setLine_settingsStatus (s : State) (l : LineId) (x : LineCtl) : (s.setLine l x).settingsStatus = s.settingsStatus := by cases l <;> rfl
@[simp] theorem State.setLine_settingsExamined (s : State) (l : LineId) (x : LineCtl) : (s.setLine l x).settingsExamined = s.settingsExamined := by cases l <;> rfl
@[simp] theorem State.setLine_settingsApplied (s : State) (l : LineId) (x : LineCtl) : (s.setLine l x).settingsApplied = s.settingsApplied := by cases l <;> rfl
@[simp] theorem State.setLine_positions (s : State) (l : LineId) (x : LineCtl) : (s.setLine l x).positions = s.positions := by cases l <;> rfl
@[simp] theorem State.setLine_meas (s : State) (l : LineId) (x : LineCtl) : (s.setLine l x).meas = s.meas := by cases l <;> rfl
@[simp] theorem State.setLine_levels (s : State) (l : LineId) (x : LineCtl) : (s.setLine l x).levels = s.levels := by cases l <;> rfl
@[simp] theorem State.setLine_pulses (s : State) (l : LineId) (x : LineCtl) : (s.setLine l x).pulses = s.pulses := by cases l <;> rfl
@[simp] theorem State.setLine_inhibitN (s : State) (l : LineId) (x : LineCtl) : (s.setLine l x).inhibitN = s.inhibitN := by cases l <;> rfl
@[simp] theorem State.setLine_identity (s : State) (l : LineId) (x : LineCtl) : (s.setLine l x).identity = s.identity := by cases l <;> rfl
@[simp] theorem State.setLine_evictions (s : State) (l : LineId) (x : LineCtl) : (s.setLine l x).evictions = s.evictions := by cases l <;> rfl
@[simp] theorem State.setLine_retired (s : State) (l : LineId) (x : LineCtl) : (s.setLine l x).retired = s.retired := by cases l <;> rfl
@[simp] theorem State.setLine_retiredDropped (s : State) (l : LineId) (x : LineCtl) : (s.setLine l x).retiredDropped = s.retiredDropped := by cases l <;> rfl
@[simp] theorem State.setLine_rules (s : State) (l : LineId) (x : LineCtl) : (s.setLine l x).rules = s.rules := by cases l <;> rfl
@[simp] theorem State.setLine_ruleLoads (s : State) (l : LineId) (x : LineCtl) : (s.setLine l x).ruleLoads = s.ruleLoads := by cases l <;> rfl
@[simp] theorem State.setLine_classes (s : State) (l : LineId) (x : LineCtl) : (s.setLine l x).classes = s.classes := by cases l <;> rfl
@[simp] theorem State.setLine_keys (s : State) (l : LineId) (x : LineCtl) : (s.setLine l x).keys = s.keys := by cases l <;> rfl
@[simp] theorem State.setLine_permits (s : State) (l : LineId) (x : LineCtl) : (s.setLine l x).permits = s.permits := by cases l <;> rfl
@[simp] theorem State.setLine_free (s : State) (l : LineId) (x : LineCtl) : (s.setLine l x).free = s.free := by cases l <;> rfl

@[simp] theorem State.modLine_power (s : State) (l : LineId) (f : LineCtl → LineCtl) : (s.modLine l f).power = s.power := by cases l <;> rfl
@[simp] theorem State.modLine_pending (s : State) (l : LineId) (f : LineCtl → LineCtl) : (s.modLine l f).pending = s.pending := by cases l <;> rfl
@[simp] theorem State.modLine_device (s : State) (l : LineId) (f : LineCtl → LineCtl) : (s.modLine l f).device = s.device := by cases l <;> rfl
@[simp] theorem State.modLine_clearing (s : State) (l : LineId) (f : LineCtl → LineCtl) : (s.modLine l f).clearing = s.clearing := by cases l <;> rfl
@[simp] theorem State.modLine_mem (s : State) (l : LineId) (f : LineCtl → LineCtl) : (s.modLine l f).mem = s.mem := by cases l <;> rfl
@[simp] theorem State.modLine_watch (s : State) (l : LineId) (f : LineCtl → LineCtl) : (s.modLine l f).watch = s.watch := by cases l <;> rfl
@[simp] theorem State.modLine_slots (s : State) (l : LineId) (f : LineCtl → LineCtl) : (s.modLine l f).slots = s.slots := by cases l <;> rfl
@[simp] theorem State.modLine_misuse (s : State) (l : LineId) (f : LineCtl → LineCtl) : (s.modLine l f).misuse = s.misuse := by cases l <;> rfl
@[simp] theorem State.modLine_attention (s : State) (l : LineId) (f : LineCtl → LineCtl) : (s.modLine l f).attention = s.attention := by cases l <;> rfl
@[simp] theorem State.modLine_attentionEnable (s : State) (l : LineId) (f : LineCtl → LineCtl) : (s.modLine l f).attentionEnable = s.attentionEnable := by cases l <;> rfl
@[simp] theorem State.modLine_blockEdition (s : State) (l : LineId) (f : LineCtl → LineCtl) : (s.modLine l f).blockEdition = s.blockEdition := by cases l <;> rfl
@[simp] theorem State.modLine_blockDirty (s : State) (l : LineId) (f : LineCtl → LineCtl) : (s.modLine l f).blockDirty = s.blockDirty := by cases l <;> rfl
@[simp] theorem State.modLine_settings (s : State) (l : LineId) (f : LineCtl → LineCtl) : (s.modLine l f).settings = s.settings := by cases l <;> rfl
@[simp] theorem State.modLine_settingsStatus (s : State) (l : LineId) (f : LineCtl → LineCtl) : (s.modLine l f).settingsStatus = s.settingsStatus := by cases l <;> rfl
@[simp] theorem State.modLine_settingsExamined (s : State) (l : LineId) (f : LineCtl → LineCtl) : (s.modLine l f).settingsExamined = s.settingsExamined := by cases l <;> rfl
@[simp] theorem State.modLine_settingsApplied (s : State) (l : LineId) (f : LineCtl → LineCtl) : (s.modLine l f).settingsApplied = s.settingsApplied := by cases l <;> rfl
@[simp] theorem State.modLine_positions (s : State) (l : LineId) (f : LineCtl → LineCtl) : (s.modLine l f).positions = s.positions := by cases l <;> rfl
@[simp] theorem State.modLine_meas (s : State) (l : LineId) (f : LineCtl → LineCtl) : (s.modLine l f).meas = s.meas := by cases l <;> rfl
@[simp] theorem State.modLine_levels (s : State) (l : LineId) (f : LineCtl → LineCtl) : (s.modLine l f).levels = s.levels := by cases l <;> rfl
@[simp] theorem State.modLine_pulses (s : State) (l : LineId) (f : LineCtl → LineCtl) : (s.modLine l f).pulses = s.pulses := by cases l <;> rfl
@[simp] theorem State.modLine_inhibitN (s : State) (l : LineId) (f : LineCtl → LineCtl) : (s.modLine l f).inhibitN = s.inhibitN := by cases l <;> rfl
@[simp] theorem State.modLine_identity (s : State) (l : LineId) (f : LineCtl → LineCtl) : (s.modLine l f).identity = s.identity := by cases l <;> rfl
@[simp] theorem State.modLine_evictions (s : State) (l : LineId) (f : LineCtl → LineCtl) : (s.modLine l f).evictions = s.evictions := by cases l <;> rfl
@[simp] theorem State.modLine_retired (s : State) (l : LineId) (f : LineCtl → LineCtl) : (s.modLine l f).retired = s.retired := by cases l <;> rfl
@[simp] theorem State.modLine_retiredDropped (s : State) (l : LineId) (f : LineCtl → LineCtl) : (s.modLine l f).retiredDropped = s.retiredDropped := by cases l <;> rfl
@[simp] theorem State.modLine_rules (s : State) (l : LineId) (f : LineCtl → LineCtl) : (s.modLine l f).rules = s.rules := by cases l <;> rfl
@[simp] theorem State.modLine_ruleLoads (s : State) (l : LineId) (f : LineCtl → LineCtl) : (s.modLine l f).ruleLoads = s.ruleLoads := by cases l <;> rfl
@[simp] theorem State.modLine_classes (s : State) (l : LineId) (f : LineCtl → LineCtl) : (s.modLine l f).classes = s.classes := by cases l <;> rfl
@[simp] theorem State.modLine_keys (s : State) (l : LineId) (f : LineCtl → LineCtl) : (s.modLine l f).keys = s.keys := by cases l <;> rfl
@[simp] theorem State.modLine_permits (s : State) (l : LineId) (f : LineCtl → LineCtl) : (s.modLine l f).permits = s.permits := by cases l <;> rfl
@[simp] theorem State.modLine_free (s : State) (l : LineId) (f : LineCtl → LineCtl) : (s.modLine l f).free = s.free := by cases l <;> rfl

@[simp] theorem State.setSlot_power (s : State) (k : SlotId) (x : TaskSlot) : (s.setSlot k x).power = s.power := rfl
@[simp] theorem State.setSlot_pending (s : State) (k : SlotId) (x : TaskSlot) : (s.setSlot k x).pending = s.pending := rfl
@[simp] theorem State.setSlot_device (s : State) (k : SlotId) (x : TaskSlot) : (s.setSlot k x).device = s.device := rfl
@[simp] theorem State.setSlot_clearing (s : State) (k : SlotId) (x : TaskSlot) : (s.setSlot k x).clearing = s.clearing := rfl
@[simp] theorem State.setSlot_mem (s : State) (k : SlotId) (x : TaskSlot) : (s.setSlot k x).mem = s.mem := rfl
@[simp] theorem State.setSlot_watch (s : State) (k : SlotId) (x : TaskSlot) : (s.setSlot k x).watch = s.watch := rfl
@[simp] theorem State.setSlot_misuse (s : State) (k : SlotId) (x : TaskSlot) : (s.setSlot k x).misuse = s.misuse := rfl
@[simp] theorem State.setSlot_attention (s : State) (k : SlotId) (x : TaskSlot) : (s.setSlot k x).attention = s.attention := rfl
@[simp] theorem State.setSlot_attentionEnable (s : State) (k : SlotId) (x : TaskSlot) : (s.setSlot k x).attentionEnable = s.attentionEnable := rfl
@[simp] theorem State.setSlot_blockEdition (s : State) (k : SlotId) (x : TaskSlot) : (s.setSlot k x).blockEdition = s.blockEdition := rfl
@[simp] theorem State.setSlot_blockDirty (s : State) (k : SlotId) (x : TaskSlot) : (s.setSlot k x).blockDirty = s.blockDirty := rfl
@[simp] theorem State.setSlot_settings (s : State) (k : SlotId) (x : TaskSlot) : (s.setSlot k x).settings = s.settings := rfl
@[simp] theorem State.setSlot_settingsStatus (s : State) (k : SlotId) (x : TaskSlot) : (s.setSlot k x).settingsStatus = s.settingsStatus := rfl
@[simp] theorem State.setSlot_settingsExamined (s : State) (k : SlotId) (x : TaskSlot) : (s.setSlot k x).settingsExamined = s.settingsExamined := rfl
@[simp] theorem State.setSlot_settingsApplied (s : State) (k : SlotId) (x : TaskSlot) : (s.setSlot k x).settingsApplied = s.settingsApplied := rfl
@[simp] theorem State.setSlot_positions (s : State) (k : SlotId) (x : TaskSlot) : (s.setSlot k x).positions = s.positions := rfl
@[simp] theorem State.setSlot_lineA (s : State) (k : SlotId) (x : TaskSlot) : (s.setSlot k x).lineA = s.lineA := rfl
@[simp] theorem State.setSlot_lineB (s : State) (k : SlotId) (x : TaskSlot) : (s.setSlot k x).lineB = s.lineB := rfl
@[simp] theorem State.setSlot_meas (s : State) (k : SlotId) (x : TaskSlot) : (s.setSlot k x).meas = s.meas := rfl
@[simp] theorem State.setSlot_levels (s : State) (k : SlotId) (x : TaskSlot) : (s.setSlot k x).levels = s.levels := rfl
@[simp] theorem State.setSlot_pulses (s : State) (k : SlotId) (x : TaskSlot) : (s.setSlot k x).pulses = s.pulses := rfl
@[simp] theorem State.setSlot_inhibitN (s : State) (k : SlotId) (x : TaskSlot) : (s.setSlot k x).inhibitN = s.inhibitN := rfl
@[simp] theorem State.setSlot_identity (s : State) (k : SlotId) (x : TaskSlot) : (s.setSlot k x).identity = s.identity := rfl
@[simp] theorem State.setSlot_evictions (s : State) (k : SlotId) (x : TaskSlot) : (s.setSlot k x).evictions = s.evictions := rfl
@[simp] theorem State.setSlot_retired (s : State) (k : SlotId) (x : TaskSlot) : (s.setSlot k x).retired = s.retired := rfl
@[simp] theorem State.setSlot_retiredDropped (s : State) (k : SlotId) (x : TaskSlot) : (s.setSlot k x).retiredDropped = s.retiredDropped := rfl
@[simp] theorem State.setSlot_rules (s : State) (k : SlotId) (x : TaskSlot) : (s.setSlot k x).rules = s.rules := rfl
@[simp] theorem State.setSlot_ruleLoads (s : State) (k : SlotId) (x : TaskSlot) : (s.setSlot k x).ruleLoads = s.ruleLoads := rfl
@[simp] theorem State.setSlot_classes (s : State) (k : SlotId) (x : TaskSlot) : (s.setSlot k x).classes = s.classes := rfl
@[simp] theorem State.setSlot_keys (s : State) (k : SlotId) (x : TaskSlot) : (s.setSlot k x).keys = s.keys := rfl
@[simp] theorem State.setSlot_permits (s : State) (k : SlotId) (x : TaskSlot) : (s.setSlot k x).permits = s.permits := rfl
@[simp] theorem State.setSlot_free (s : State) (k : SlotId) (x : TaskSlot) : (s.setSlot k x).free = s.free := rfl

@[simp] theorem State.modMeas_power (s : State) (f : MeasUnit → MeasUnit) : (s.modMeas f).power = s.power := rfl
@[simp] theorem State.modMeas_pending (s : State) (f : MeasUnit → MeasUnit) : (s.modMeas f).pending = s.pending := rfl
@[simp] theorem State.modMeas_device (s : State) (f : MeasUnit → MeasUnit) : (s.modMeas f).device = s.device := rfl
@[simp] theorem State.modMeas_clearing (s : State) (f : MeasUnit → MeasUnit) : (s.modMeas f).clearing = s.clearing := rfl
@[simp] theorem State.modMeas_mem (s : State) (f : MeasUnit → MeasUnit) : (s.modMeas f).mem = s.mem := rfl
@[simp] theorem State.modMeas_watch (s : State) (f : MeasUnit → MeasUnit) : (s.modMeas f).watch = s.watch := rfl
@[simp] theorem State.modMeas_slots (s : State) (f : MeasUnit → MeasUnit) : (s.modMeas f).slots = s.slots := rfl
@[simp] theorem State.modMeas_misuse (s : State) (f : MeasUnit → MeasUnit) : (s.modMeas f).misuse = s.misuse := rfl
@[simp] theorem State.modMeas_attention (s : State) (f : MeasUnit → MeasUnit) : (s.modMeas f).attention = s.attention := rfl
@[simp] theorem State.modMeas_attentionEnable (s : State) (f : MeasUnit → MeasUnit) : (s.modMeas f).attentionEnable = s.attentionEnable := rfl
@[simp] theorem State.modMeas_blockEdition (s : State) (f : MeasUnit → MeasUnit) : (s.modMeas f).blockEdition = s.blockEdition := rfl
@[simp] theorem State.modMeas_blockDirty (s : State) (f : MeasUnit → MeasUnit) : (s.modMeas f).blockDirty = s.blockDirty := rfl
@[simp] theorem State.modMeas_settings (s : State) (f : MeasUnit → MeasUnit) : (s.modMeas f).settings = s.settings := rfl
@[simp] theorem State.modMeas_settingsStatus (s : State) (f : MeasUnit → MeasUnit) : (s.modMeas f).settingsStatus = s.settingsStatus := rfl
@[simp] theorem State.modMeas_settingsExamined (s : State) (f : MeasUnit → MeasUnit) : (s.modMeas f).settingsExamined = s.settingsExamined := rfl
@[simp] theorem State.modMeas_settingsApplied (s : State) (f : MeasUnit → MeasUnit) : (s.modMeas f).settingsApplied = s.settingsApplied := rfl
@[simp] theorem State.modMeas_positions (s : State) (f : MeasUnit → MeasUnit) : (s.modMeas f).positions = s.positions := rfl
@[simp] theorem State.modMeas_lineA (s : State) (f : MeasUnit → MeasUnit) : (s.modMeas f).lineA = s.lineA := rfl
@[simp] theorem State.modMeas_lineB (s : State) (f : MeasUnit → MeasUnit) : (s.modMeas f).lineB = s.lineB := rfl
@[simp] theorem State.modMeas_levels (s : State) (f : MeasUnit → MeasUnit) : (s.modMeas f).levels = s.levels := rfl
@[simp] theorem State.modMeas_pulses (s : State) (f : MeasUnit → MeasUnit) : (s.modMeas f).pulses = s.pulses := rfl
@[simp] theorem State.modMeas_inhibitN (s : State) (f : MeasUnit → MeasUnit) : (s.modMeas f).inhibitN = s.inhibitN := rfl
@[simp] theorem State.modMeas_identity (s : State) (f : MeasUnit → MeasUnit) : (s.modMeas f).identity = s.identity := rfl
@[simp] theorem State.modMeas_evictions (s : State) (f : MeasUnit → MeasUnit) : (s.modMeas f).evictions = s.evictions := rfl
@[simp] theorem State.modMeas_retired (s : State) (f : MeasUnit → MeasUnit) : (s.modMeas f).retired = s.retired := rfl
@[simp] theorem State.modMeas_retiredDropped (s : State) (f : MeasUnit → MeasUnit) : (s.modMeas f).retiredDropped = s.retiredDropped := rfl
@[simp] theorem State.modMeas_rules (s : State) (f : MeasUnit → MeasUnit) : (s.modMeas f).rules = s.rules := rfl
@[simp] theorem State.modMeas_ruleLoads (s : State) (f : MeasUnit → MeasUnit) : (s.modMeas f).ruleLoads = s.ruleLoads := rfl
@[simp] theorem State.modMeas_classes (s : State) (f : MeasUnit → MeasUnit) : (s.modMeas f).classes = s.classes := rfl
@[simp] theorem State.modMeas_keys (s : State) (f : MeasUnit → MeasUnit) : (s.modMeas f).keys = s.keys := rfl
@[simp] theorem State.modMeas_permits (s : State) (f : MeasUnit → MeasUnit) : (s.modMeas f).permits = s.permits := rfl
@[simp] theorem State.modMeas_free (s : State) (f : MeasUnit → MeasUnit) : (s.modMeas f).free = s.free := rfl

@[simp] theorem State.mapPositions_power (s : State) (f : Position → Position) : (s.mapPositions f).power = s.power := by simp only [State.mapPositions]
@[simp] theorem State.mapPositions_pending (s : State) (f : Position → Position) : (s.mapPositions f).pending = s.pending := by simp only [State.mapPositions]
@[simp] theorem State.mapPositions_device (s : State) (f : Position → Position) : (s.mapPositions f).device = s.device := by simp only [State.mapPositions]
@[simp] theorem State.mapPositions_clearing (s : State) (f : Position → Position) : (s.mapPositions f).clearing = s.clearing := by simp only [State.mapPositions]
@[simp] theorem State.mapPositions_mem (s : State) (f : Position → Position) : (s.mapPositions f).mem = s.mem := by simp only [State.mapPositions]
@[simp] theorem State.mapPositions_watch (s : State) (f : Position → Position) : (s.mapPositions f).watch = s.watch := by simp only [State.mapPositions]
@[simp] theorem State.mapPositions_slots (s : State) (f : Position → Position) : (s.mapPositions f).slots = s.slots := by simp only [State.mapPositions]
@[simp] theorem State.mapPositions_misuse (s : State) (f : Position → Position) : (s.mapPositions f).misuse = s.misuse := by simp only [State.mapPositions]
@[simp] theorem State.mapPositions_attention (s : State) (f : Position → Position) : (s.mapPositions f).attention = s.attention := by simp only [State.mapPositions]
@[simp] theorem State.mapPositions_attentionEnable (s : State) (f : Position → Position) : (s.mapPositions f).attentionEnable = s.attentionEnable := by simp only [State.mapPositions]
@[simp] theorem State.mapPositions_blockEdition (s : State) (f : Position → Position) : (s.mapPositions f).blockEdition = s.blockEdition := by simp only [State.mapPositions]
@[simp] theorem State.mapPositions_blockDirty (s : State) (f : Position → Position) : (s.mapPositions f).blockDirty = s.blockDirty := by simp only [State.mapPositions]
@[simp] theorem State.mapPositions_settings (s : State) (f : Position → Position) : (s.mapPositions f).settings = s.settings := by simp only [State.mapPositions]
@[simp] theorem State.mapPositions_settingsStatus (s : State) (f : Position → Position) : (s.mapPositions f).settingsStatus = s.settingsStatus := by simp only [State.mapPositions]
@[simp] theorem State.mapPositions_settingsExamined (s : State) (f : Position → Position) : (s.mapPositions f).settingsExamined = s.settingsExamined := by simp only [State.mapPositions]
@[simp] theorem State.mapPositions_settingsApplied (s : State) (f : Position → Position) : (s.mapPositions f).settingsApplied = s.settingsApplied := by simp only [State.mapPositions]
@[simp] theorem State.mapPositions_lineA (s : State) (f : Position → Position) : (s.mapPositions f).lineA = s.lineA := by simp only [State.mapPositions]
@[simp] theorem State.mapPositions_lineB (s : State) (f : Position → Position) : (s.mapPositions f).lineB = s.lineB := by simp only [State.mapPositions]
@[simp] theorem State.mapPositions_meas (s : State) (f : Position → Position) : (s.mapPositions f).meas = s.meas := by simp only [State.mapPositions]
@[simp] theorem State.mapPositions_levels (s : State) (f : Position → Position) : (s.mapPositions f).levels = s.levels := by simp only [State.mapPositions]
@[simp] theorem State.mapPositions_pulses (s : State) (f : Position → Position) : (s.mapPositions f).pulses = s.pulses := by simp only [State.mapPositions]
@[simp] theorem State.mapPositions_inhibitN (s : State) (f : Position → Position) : (s.mapPositions f).inhibitN = s.inhibitN := by simp only [State.mapPositions]
@[simp] theorem State.mapPositions_identity (s : State) (f : Position → Position) : (s.mapPositions f).identity = s.identity := by simp only [State.mapPositions]
@[simp] theorem State.mapPositions_evictions (s : State) (f : Position → Position) : (s.mapPositions f).evictions = s.evictions := by simp only [State.mapPositions]
@[simp] theorem State.mapPositions_retired (s : State) (f : Position → Position) : (s.mapPositions f).retired = s.retired := by simp only [State.mapPositions]
@[simp] theorem State.mapPositions_retiredDropped (s : State) (f : Position → Position) : (s.mapPositions f).retiredDropped = s.retiredDropped := by simp only [State.mapPositions]
@[simp] theorem State.mapPositions_rules (s : State) (f : Position → Position) : (s.mapPositions f).rules = s.rules := by simp only [State.mapPositions]
@[simp] theorem State.mapPositions_ruleLoads (s : State) (f : Position → Position) : (s.mapPositions f).ruleLoads = s.ruleLoads := by simp only [State.mapPositions]
@[simp] theorem State.mapPositions_classes (s : State) (f : Position → Position) : (s.mapPositions f).classes = s.classes := by simp only [State.mapPositions]
@[simp] theorem State.mapPositions_keys (s : State) (f : Position → Position) : (s.mapPositions f).keys = s.keys := by simp only [State.mapPositions]
@[simp] theorem State.mapPositions_permits (s : State) (f : Position → Position) : (s.mapPositions f).permits = s.permits := by simp only [State.mapPositions]
@[simp] theorem State.mapPositions_free (s : State) (f : Position → Position) : (s.mapPositions f).free = s.free := by simp only [State.mapPositions]

@[simp] theorem State.setKeys_power (s : State) (k : KeyStore) : (s.setKeys k).power = s.power := rfl
@[simp] theorem State.setKeys_pending (s : State) (k : KeyStore) : (s.setKeys k).pending = s.pending := rfl
@[simp] theorem State.setKeys_device (s : State) (k : KeyStore) : (s.setKeys k).device = s.device := rfl
@[simp] theorem State.setKeys_clearing (s : State) (k : KeyStore) : (s.setKeys k).clearing = s.clearing := rfl
@[simp] theorem State.setKeys_mem (s : State) (k : KeyStore) : (s.setKeys k).mem = s.mem := rfl
@[simp] theorem State.setKeys_watch (s : State) (k : KeyStore) : (s.setKeys k).watch = s.watch := rfl
@[simp] theorem State.setKeys_slots (s : State) (k : KeyStore) : (s.setKeys k).slots = s.slots := rfl
@[simp] theorem State.setKeys_misuse (s : State) (k : KeyStore) : (s.setKeys k).misuse = s.misuse := rfl
@[simp] theorem State.setKeys_attention (s : State) (k : KeyStore) : (s.setKeys k).attention = s.attention := rfl
@[simp] theorem State.setKeys_attentionEnable (s : State) (k : KeyStore) : (s.setKeys k).attentionEnable = s.attentionEnable := rfl
@[simp] theorem State.setKeys_blockEdition (s : State) (k : KeyStore) : (s.setKeys k).blockEdition = s.blockEdition := rfl
@[simp] theorem State.setKeys_blockDirty (s : State) (k : KeyStore) : (s.setKeys k).blockDirty = s.blockDirty := rfl
@[simp] theorem State.setKeys_settings (s : State) (k : KeyStore) : (s.setKeys k).settings = s.settings := rfl
@[simp] theorem State.setKeys_settingsStatus (s : State) (k : KeyStore) : (s.setKeys k).settingsStatus = s.settingsStatus := rfl
@[simp] theorem State.setKeys_settingsExamined (s : State) (k : KeyStore) : (s.setKeys k).settingsExamined = s.settingsExamined := rfl
@[simp] theorem State.setKeys_settingsApplied (s : State) (k : KeyStore) : (s.setKeys k).settingsApplied = s.settingsApplied := rfl
@[simp] theorem State.setKeys_positions (s : State) (k : KeyStore) : (s.setKeys k).positions = s.positions := rfl
@[simp] theorem State.setKeys_lineA (s : State) (k : KeyStore) : (s.setKeys k).lineA = s.lineA := rfl
@[simp] theorem State.setKeys_lineB (s : State) (k : KeyStore) : (s.setKeys k).lineB = s.lineB := rfl
@[simp] theorem State.setKeys_meas (s : State) (k : KeyStore) : (s.setKeys k).meas = s.meas := rfl
@[simp] theorem State.setKeys_levels (s : State) (k : KeyStore) : (s.setKeys k).levels = s.levels := rfl
@[simp] theorem State.setKeys_pulses (s : State) (k : KeyStore) : (s.setKeys k).pulses = s.pulses := rfl
@[simp] theorem State.setKeys_inhibitN (s : State) (k : KeyStore) : (s.setKeys k).inhibitN = s.inhibitN := rfl
@[simp] theorem State.setKeys_identity (s : State) (k : KeyStore) : (s.setKeys k).identity = s.identity := rfl
@[simp] theorem State.setKeys_evictions (s : State) (k : KeyStore) : (s.setKeys k).evictions = s.evictions := rfl
@[simp] theorem State.setKeys_retired (s : State) (k : KeyStore) : (s.setKeys k).retired = s.retired := rfl
@[simp] theorem State.setKeys_retiredDropped (s : State) (k : KeyStore) : (s.setKeys k).retiredDropped = s.retiredDropped := rfl
@[simp] theorem State.setKeys_rules (s : State) (k : KeyStore) : (s.setKeys k).rules = s.rules := rfl
@[simp] theorem State.setKeys_ruleLoads (s : State) (k : KeyStore) : (s.setKeys k).ruleLoads = s.ruleLoads := rfl
@[simp] theorem State.setKeys_classes (s : State) (k : KeyStore) : (s.setKeys k).classes = s.classes := rfl
@[simp] theorem State.setKeys_permits (s : State) (k : KeyStore) : (s.setKeys k).permits = s.permits := rfl
@[simp] theorem State.setKeys_free (s : State) (k : KeyStore) : (s.setKeys k).free = s.free := rfl

@[simp] theorem State.draw_power (s : State) : (s.draw).power = s.power := rfl
@[simp] theorem State.draw_pending (s : State) : (s.draw).pending = s.pending := rfl
@[simp] theorem State.draw_device (s : State) : (s.draw).device = s.device := rfl
@[simp] theorem State.draw_clearing (s : State) : (s.draw).clearing = s.clearing := rfl
@[simp] theorem State.draw_mem (s : State) : (s.draw).mem = s.mem := rfl
@[simp] theorem State.draw_watch (s : State) : (s.draw).watch = s.watch := rfl
@[simp] theorem State.draw_slots (s : State) : (s.draw).slots = s.slots := rfl
@[simp] theorem State.draw_misuse (s : State) : (s.draw).misuse = s.misuse := rfl
@[simp] theorem State.draw_attention (s : State) : (s.draw).attention = s.attention := rfl
@[simp] theorem State.draw_attentionEnable (s : State) : (s.draw).attentionEnable = s.attentionEnable := rfl
@[simp] theorem State.draw_blockEdition (s : State) : (s.draw).blockEdition = s.blockEdition := rfl
@[simp] theorem State.draw_blockDirty (s : State) : (s.draw).blockDirty = s.blockDirty := rfl
@[simp] theorem State.draw_settings (s : State) : (s.draw).settings = s.settings := rfl
@[simp] theorem State.draw_settingsStatus (s : State) : (s.draw).settingsStatus = s.settingsStatus := rfl
@[simp] theorem State.draw_settingsExamined (s : State) : (s.draw).settingsExamined = s.settingsExamined := rfl
@[simp] theorem State.draw_settingsApplied (s : State) : (s.draw).settingsApplied = s.settingsApplied := rfl
@[simp] theorem State.draw_positions (s : State) : (s.draw).positions = s.positions := rfl
@[simp] theorem State.draw_lineA (s : State) : (s.draw).lineA = s.lineA := rfl
@[simp] theorem State.draw_lineB (s : State) : (s.draw).lineB = s.lineB := rfl
@[simp] theorem State.draw_meas (s : State) : (s.draw).meas = s.meas := rfl
@[simp] theorem State.draw_levels (s : State) : (s.draw).levels = s.levels := rfl
@[simp] theorem State.draw_pulses (s : State) : (s.draw).pulses = s.pulses := rfl
@[simp] theorem State.draw_inhibitN (s : State) : (s.draw).inhibitN = s.inhibitN := rfl
@[simp] theorem State.draw_identity (s : State) : (s.draw).identity = s.identity := rfl
@[simp] theorem State.draw_evictions (s : State) : (s.draw).evictions = s.evictions := rfl
@[simp] theorem State.draw_retired (s : State) : (s.draw).retired = s.retired := rfl
@[simp] theorem State.draw_retiredDropped (s : State) : (s.draw).retiredDropped = s.retiredDropped := rfl
@[simp] theorem State.draw_rules (s : State) : (s.draw).rules = s.rules := rfl
@[simp] theorem State.draw_ruleLoads (s : State) : (s.draw).ruleLoads = s.ruleLoads := rfl
@[simp] theorem State.draw_classes (s : State) : (s.draw).classes = s.classes := rfl
@[simp] theorem State.draw_keys (s : State) : (s.draw).keys = s.keys := rfl
@[simp] theorem State.draw_permits (s : State) : (s.draw).permits = s.permits := rfl

@[simp] theorem State.touchBlock_power (s : State) : (s.touchBlock).power = s.power := rfl
@[simp] theorem State.touchBlock_pending (s : State) : (s.touchBlock).pending = s.pending := rfl
@[simp] theorem State.touchBlock_device (s : State) : (s.touchBlock).device = s.device := rfl
@[simp] theorem State.touchBlock_clearing (s : State) : (s.touchBlock).clearing = s.clearing := rfl
@[simp] theorem State.touchBlock_mem (s : State) : (s.touchBlock).mem = s.mem := rfl
@[simp] theorem State.touchBlock_watch (s : State) : (s.touchBlock).watch = s.watch := rfl
@[simp] theorem State.touchBlock_slots (s : State) : (s.touchBlock).slots = s.slots := rfl
@[simp] theorem State.touchBlock_misuse (s : State) : (s.touchBlock).misuse = s.misuse := rfl
@[simp] theorem State.touchBlock_attention (s : State) : (s.touchBlock).attention = s.attention := rfl
@[simp] theorem State.touchBlock_attentionEnable (s : State) : (s.touchBlock).attentionEnable = s.attentionEnable := rfl
@[simp] theorem State.touchBlock_blockEdition (s : State) : (s.touchBlock).blockEdition = s.blockEdition := rfl
@[simp] theorem State.touchBlock_settings (s : State) : (s.touchBlock).settings = s.settings := rfl
@[simp] theorem State.touchBlock_settingsStatus (s : State) : (s.touchBlock).settingsStatus = s.settingsStatus := rfl
@[simp] theorem State.touchBlock_settingsExamined (s : State) : (s.touchBlock).settingsExamined = s.settingsExamined := rfl
@[simp] theorem State.touchBlock_settingsApplied (s : State) : (s.touchBlock).settingsApplied = s.settingsApplied := rfl
@[simp] theorem State.touchBlock_positions (s : State) : (s.touchBlock).positions = s.positions := rfl
@[simp] theorem State.touchBlock_lineA (s : State) : (s.touchBlock).lineA = s.lineA := rfl
@[simp] theorem State.touchBlock_lineB (s : State) : (s.touchBlock).lineB = s.lineB := rfl
@[simp] theorem State.touchBlock_meas (s : State) : (s.touchBlock).meas = s.meas := rfl
@[simp] theorem State.touchBlock_levels (s : State) : (s.touchBlock).levels = s.levels := rfl
@[simp] theorem State.touchBlock_pulses (s : State) : (s.touchBlock).pulses = s.pulses := rfl
@[simp] theorem State.touchBlock_inhibitN (s : State) : (s.touchBlock).inhibitN = s.inhibitN := rfl
@[simp] theorem State.touchBlock_identity (s : State) : (s.touchBlock).identity = s.identity := rfl
@[simp] theorem State.touchBlock_evictions (s : State) : (s.touchBlock).evictions = s.evictions := rfl
@[simp] theorem State.touchBlock_retired (s : State) : (s.touchBlock).retired = s.retired := rfl
@[simp] theorem State.touchBlock_retiredDropped (s : State) : (s.touchBlock).retiredDropped = s.retiredDropped := rfl
@[simp] theorem State.touchBlock_rules (s : State) : (s.touchBlock).rules = s.rules := rfl
@[simp] theorem State.touchBlock_ruleLoads (s : State) : (s.touchBlock).ruleLoads = s.ruleLoads := rfl
@[simp] theorem State.touchBlock_classes (s : State) : (s.touchBlock).classes = s.classes := rfl
@[simp] theorem State.touchBlock_keys (s : State) : (s.touchBlock).keys = s.keys := rfl
@[simp] theorem State.touchBlock_permits (s : State) : (s.touchBlock).permits = s.permits := rfl
@[simp] theorem State.touchBlock_free (s : State) : (s.touchBlock).free = s.free := rfl

@[simp] theorem State.attend_power (s : State) (r : BitVec 4) : (s.attend r).power = s.power := rfl
@[simp] theorem State.attend_pending (s : State) (r : BitVec 4) : (s.attend r).pending = s.pending := rfl
@[simp] theorem State.attend_device (s : State) (r : BitVec 4) : (s.attend r).device = s.device := rfl
@[simp] theorem State.attend_clearing (s : State) (r : BitVec 4) : (s.attend r).clearing = s.clearing := rfl
@[simp] theorem State.attend_mem (s : State) (r : BitVec 4) : (s.attend r).mem = s.mem := rfl
@[simp] theorem State.attend_watch (s : State) (r : BitVec 4) : (s.attend r).watch = s.watch := rfl
@[simp] theorem State.attend_slots (s : State) (r : BitVec 4) : (s.attend r).slots = s.slots := rfl
@[simp] theorem State.attend_misuse (s : State) (r : BitVec 4) : (s.attend r).misuse = s.misuse := rfl
@[simp] theorem State.attend_attentionEnable (s : State) (r : BitVec 4) : (s.attend r).attentionEnable = s.attentionEnable := rfl
@[simp] theorem State.attend_blockEdition (s : State) (r : BitVec 4) : (s.attend r).blockEdition = s.blockEdition := rfl
@[simp] theorem State.attend_blockDirty (s : State) (r : BitVec 4) : (s.attend r).blockDirty = s.blockDirty := rfl
@[simp] theorem State.attend_settings (s : State) (r : BitVec 4) : (s.attend r).settings = s.settings := rfl
@[simp] theorem State.attend_settingsStatus (s : State) (r : BitVec 4) : (s.attend r).settingsStatus = s.settingsStatus := rfl
@[simp] theorem State.attend_settingsExamined (s : State) (r : BitVec 4) : (s.attend r).settingsExamined = s.settingsExamined := rfl
@[simp] theorem State.attend_settingsApplied (s : State) (r : BitVec 4) : (s.attend r).settingsApplied = s.settingsApplied := rfl
@[simp] theorem State.attend_positions (s : State) (r : BitVec 4) : (s.attend r).positions = s.positions := rfl
@[simp] theorem State.attend_lineA (s : State) (r : BitVec 4) : (s.attend r).lineA = s.lineA := rfl
@[simp] theorem State.attend_lineB (s : State) (r : BitVec 4) : (s.attend r).lineB = s.lineB := rfl
@[simp] theorem State.attend_meas (s : State) (r : BitVec 4) : (s.attend r).meas = s.meas := rfl
@[simp] theorem State.attend_levels (s : State) (r : BitVec 4) : (s.attend r).levels = s.levels := rfl
@[simp] theorem State.attend_pulses (s : State) (r : BitVec 4) : (s.attend r).pulses = s.pulses := rfl
@[simp] theorem State.attend_inhibitN (s : State) (r : BitVec 4) : (s.attend r).inhibitN = s.inhibitN := rfl
@[simp] theorem State.attend_identity (s : State) (r : BitVec 4) : (s.attend r).identity = s.identity := rfl
@[simp] theorem State.attend_evictions (s : State) (r : BitVec 4) : (s.attend r).evictions = s.evictions := rfl
@[simp] theorem State.attend_retired (s : State) (r : BitVec 4) : (s.attend r).retired = s.retired := rfl
@[simp] theorem State.attend_retiredDropped (s : State) (r : BitVec 4) : (s.attend r).retiredDropped = s.retiredDropped := rfl
@[simp] theorem State.attend_rules (s : State) (r : BitVec 4) : (s.attend r).rules = s.rules := rfl
@[simp] theorem State.attend_ruleLoads (s : State) (r : BitVec 4) : (s.attend r).ruleLoads = s.ruleLoads := rfl
@[simp] theorem State.attend_classes (s : State) (r : BitVec 4) : (s.attend r).classes = s.classes := rfl
@[simp] theorem State.attend_keys (s : State) (r : BitVec 4) : (s.attend r).keys = s.keys := rfl
@[simp] theorem State.attend_permits (s : State) (r : BitVec 4) : (s.attend r).permits = s.permits := rfl
@[simp] theorem State.attend_free (s : State) (r : BitVec 4) : (s.attend r).free = s.free := rfl

@[simp] theorem State.settlePermits_power (s : State) : (s.settlePermits).power = s.power := by simp only [State.settlePermits]
@[simp] theorem State.settlePermits_pending (s : State) : (s.settlePermits).pending = s.pending := by simp only [State.settlePermits]
@[simp] theorem State.settlePermits_device (s : State) : (s.settlePermits).device = s.device := by simp only [State.settlePermits]
@[simp] theorem State.settlePermits_clearing (s : State) : (s.settlePermits).clearing = s.clearing := by simp only [State.settlePermits]
@[simp] theorem State.settlePermits_mem (s : State) : (s.settlePermits).mem = s.mem := by simp only [State.settlePermits]
@[simp] theorem State.settlePermits_watch (s : State) : (s.settlePermits).watch = s.watch := by simp only [State.settlePermits]
@[simp] theorem State.settlePermits_slots (s : State) : (s.settlePermits).slots = s.slots := by simp only [State.settlePermits]
@[simp] theorem State.settlePermits_misuse (s : State) : (s.settlePermits).misuse = s.misuse := by simp only [State.settlePermits]
@[simp] theorem State.settlePermits_attentionEnable (s : State) : (s.settlePermits).attentionEnable = s.attentionEnable := by simp only [State.settlePermits]
@[simp] theorem State.settlePermits_blockEdition (s : State) : (s.settlePermits).blockEdition = s.blockEdition := by simp only [State.settlePermits]
@[simp] theorem State.settlePermits_blockDirty (s : State) : (s.settlePermits).blockDirty = s.blockDirty := by simp only [State.settlePermits]
@[simp] theorem State.settlePermits_settings (s : State) : (s.settlePermits).settings = s.settings := by simp only [State.settlePermits]
@[simp] theorem State.settlePermits_settingsStatus (s : State) : (s.settlePermits).settingsStatus = s.settingsStatus := by simp only [State.settlePermits]
@[simp] theorem State.settlePermits_settingsExamined (s : State) : (s.settlePermits).settingsExamined = s.settingsExamined := by simp only [State.settlePermits]
@[simp] theorem State.settlePermits_settingsApplied (s : State) : (s.settlePermits).settingsApplied = s.settingsApplied := by simp only [State.settlePermits]
@[simp] theorem State.settlePermits_positions (s : State) : (s.settlePermits).positions = s.positions := by simp only [State.settlePermits]
@[simp] theorem State.settlePermits_lineA (s : State) : (s.settlePermits).lineA = s.lineA := by simp only [State.settlePermits]
@[simp] theorem State.settlePermits_lineB (s : State) : (s.settlePermits).lineB = s.lineB := by simp only [State.settlePermits]
@[simp] theorem State.settlePermits_meas (s : State) : (s.settlePermits).meas = s.meas := by simp only [State.settlePermits]
@[simp] theorem State.settlePermits_levels (s : State) : (s.settlePermits).levels = s.levels := by simp only [State.settlePermits]
@[simp] theorem State.settlePermits_pulses (s : State) : (s.settlePermits).pulses = s.pulses := by simp only [State.settlePermits]
@[simp] theorem State.settlePermits_inhibitN (s : State) : (s.settlePermits).inhibitN = s.inhibitN := by simp only [State.settlePermits]
@[simp] theorem State.settlePermits_identity (s : State) : (s.settlePermits).identity = s.identity := by simp only [State.settlePermits]
@[simp] theorem State.settlePermits_evictions (s : State) : (s.settlePermits).evictions = s.evictions := by simp only [State.settlePermits]
@[simp] theorem State.settlePermits_retired (s : State) : (s.settlePermits).retired = s.retired := by simp only [State.settlePermits]
@[simp] theorem State.settlePermits_retiredDropped (s : State) : (s.settlePermits).retiredDropped = s.retiredDropped := by simp only [State.settlePermits]
@[simp] theorem State.settlePermits_rules (s : State) : (s.settlePermits).rules = s.rules := by simp only [State.settlePermits]
@[simp] theorem State.settlePermits_ruleLoads (s : State) : (s.settlePermits).ruleLoads = s.ruleLoads := by simp only [State.settlePermits]
@[simp] theorem State.settlePermits_classes (s : State) : (s.settlePermits).classes = s.classes := by simp only [State.settlePermits]
@[simp] theorem State.settlePermits_keys (s : State) : (s.settlePermits).keys = s.keys := by simp only [State.settlePermits]
@[simp] theorem State.settlePermits_free (s : State) : (s.settlePermits).free = s.free := by simp only [State.settlePermits]

@[simp] theorem State.postBlock_power (s : State) : (s.postBlock).power = s.power := rfl
@[simp] theorem State.postBlock_pending (s : State) : (s.postBlock).pending = s.pending := rfl
@[simp] theorem State.postBlock_device (s : State) : (s.postBlock).device = s.device := rfl
@[simp] theorem State.postBlock_clearing (s : State) : (s.postBlock).clearing = s.clearing := rfl
@[simp] theorem State.postBlock_watch (s : State) : (s.postBlock).watch = s.watch := rfl
@[simp] theorem State.postBlock_slots (s : State) : (s.postBlock).slots = s.slots := rfl
@[simp] theorem State.postBlock_misuse (s : State) : (s.postBlock).misuse = s.misuse := rfl
@[simp] theorem State.postBlock_attentionEnable (s : State) : (s.postBlock).attentionEnable = s.attentionEnable := rfl
@[simp] theorem State.postBlock_settings (s : State) : (s.postBlock).settings = s.settings := rfl
@[simp] theorem State.postBlock_settingsStatus (s : State) : (s.postBlock).settingsStatus = s.settingsStatus := rfl
@[simp] theorem State.postBlock_settingsExamined (s : State) : (s.postBlock).settingsExamined = s.settingsExamined := rfl
@[simp] theorem State.postBlock_settingsApplied (s : State) : (s.postBlock).settingsApplied = s.settingsApplied := rfl
@[simp] theorem State.postBlock_positions (s : State) : (s.postBlock).positions = s.positions := rfl
@[simp] theorem State.postBlock_lineA (s : State) : (s.postBlock).lineA = s.lineA := rfl
@[simp] theorem State.postBlock_lineB (s : State) : (s.postBlock).lineB = s.lineB := rfl
@[simp] theorem State.postBlock_meas (s : State) : (s.postBlock).meas = s.meas := rfl
@[simp] theorem State.postBlock_levels (s : State) : (s.postBlock).levels = s.levels := rfl
@[simp] theorem State.postBlock_pulses (s : State) : (s.postBlock).pulses = s.pulses := rfl
@[simp] theorem State.postBlock_inhibitN (s : State) : (s.postBlock).inhibitN = s.inhibitN := rfl
@[simp] theorem State.postBlock_identity (s : State) : (s.postBlock).identity = s.identity := rfl
@[simp] theorem State.postBlock_evictions (s : State) : (s.postBlock).evictions = s.evictions := rfl
@[simp] theorem State.postBlock_retired (s : State) : (s.postBlock).retired = s.retired := rfl
@[simp] theorem State.postBlock_retiredDropped (s : State) : (s.postBlock).retiredDropped = s.retiredDropped := rfl
@[simp] theorem State.postBlock_rules (s : State) : (s.postBlock).rules = s.rules := rfl
@[simp] theorem State.postBlock_ruleLoads (s : State) : (s.postBlock).ruleLoads = s.ruleLoads := rfl
@[simp] theorem State.postBlock_classes (s : State) : (s.postBlock).classes = s.classes := rfl
@[simp] theorem State.postBlock_keys (s : State) : (s.postBlock).keys = s.keys := rfl
@[simp] theorem State.postBlock_permits (s : State) : (s.postBlock).permits = s.permits := rfl
@[simp] theorem State.postBlock_free (s : State) : (s.postBlock).free = s.free := rfl

@[simp] theorem State.postHalf_power (s : State) (p : PosId) : (s.postHalf p).power = s.power := rfl
@[simp] theorem State.postHalf_pending (s : State) (p : PosId) : (s.postHalf p).pending = s.pending := rfl
@[simp] theorem State.postHalf_device (s : State) (p : PosId) : (s.postHalf p).device = s.device := rfl
@[simp] theorem State.postHalf_clearing (s : State) (p : PosId) : (s.postHalf p).clearing = s.clearing := rfl
@[simp] theorem State.postHalf_watch (s : State) (p : PosId) : (s.postHalf p).watch = s.watch := rfl
@[simp] theorem State.postHalf_slots (s : State) (p : PosId) : (s.postHalf p).slots = s.slots := rfl
@[simp] theorem State.postHalf_misuse (s : State) (p : PosId) : (s.postHalf p).misuse = s.misuse := rfl
@[simp] theorem State.postHalf_attentionEnable (s : State) (p : PosId) : (s.postHalf p).attentionEnable = s.attentionEnable := rfl
@[simp] theorem State.postHalf_blockEdition (s : State) (p : PosId) : (s.postHalf p).blockEdition = s.blockEdition := rfl
@[simp] theorem State.postHalf_blockDirty (s : State) (p : PosId) : (s.postHalf p).blockDirty = s.blockDirty := rfl
@[simp] theorem State.postHalf_settings (s : State) (p : PosId) : (s.postHalf p).settings = s.settings := rfl
@[simp] theorem State.postHalf_settingsStatus (s : State) (p : PosId) : (s.postHalf p).settingsStatus = s.settingsStatus := rfl
@[simp] theorem State.postHalf_settingsExamined (s : State) (p : PosId) : (s.postHalf p).settingsExamined = s.settingsExamined := rfl
@[simp] theorem State.postHalf_settingsApplied (s : State) (p : PosId) : (s.postHalf p).settingsApplied = s.settingsApplied := rfl
@[simp] theorem State.postHalf_lineA (s : State) (p : PosId) : (s.postHalf p).lineA = s.lineA := rfl
@[simp] theorem State.postHalf_lineB (s : State) (p : PosId) : (s.postHalf p).lineB = s.lineB := rfl
@[simp] theorem State.postHalf_meas (s : State) (p : PosId) : (s.postHalf p).meas = s.meas := rfl
@[simp] theorem State.postHalf_levels (s : State) (p : PosId) : (s.postHalf p).levels = s.levels := rfl
@[simp] theorem State.postHalf_pulses (s : State) (p : PosId) : (s.postHalf p).pulses = s.pulses := rfl
@[simp] theorem State.postHalf_inhibitN (s : State) (p : PosId) : (s.postHalf p).inhibitN = s.inhibitN := rfl
@[simp] theorem State.postHalf_identity (s : State) (p : PosId) : (s.postHalf p).identity = s.identity := rfl
@[simp] theorem State.postHalf_evictions (s : State) (p : PosId) : (s.postHalf p).evictions = s.evictions := rfl
@[simp] theorem State.postHalf_retired (s : State) (p : PosId) : (s.postHalf p).retired = s.retired := rfl
@[simp] theorem State.postHalf_retiredDropped (s : State) (p : PosId) : (s.postHalf p).retiredDropped = s.retiredDropped := rfl
@[simp] theorem State.postHalf_rules (s : State) (p : PosId) : (s.postHalf p).rules = s.rules := rfl
@[simp] theorem State.postHalf_ruleLoads (s : State) (p : PosId) : (s.postHalf p).ruleLoads = s.ruleLoads := rfl
@[simp] theorem State.postHalf_classes (s : State) (p : PosId) : (s.postHalf p).classes = s.classes := rfl
@[simp] theorem State.postHalf_keys (s : State) (p : PosId) : (s.postHalf p).keys = s.keys := rfl
@[simp] theorem State.postHalf_permits (s : State) (p : PosId) : (s.postHalf p).permits = s.permits := rfl
@[simp] theorem State.postHalf_free (s : State) (p : PosId) : (s.postHalf p).free = s.free := rfl

@[simp] theorem State.complete_power (s : State) (k : SlotId) (st : TaskStatus) (d : List Byte) : (s.complete k st d).power = s.power := rfl
@[simp] theorem State.complete_pending (s : State) (k : SlotId) (st : TaskStatus) (d : List Byte) : (s.complete k st d).pending = s.pending := rfl
@[simp] theorem State.complete_device (s : State) (k : SlotId) (st : TaskStatus) (d : List Byte) : (s.complete k st d).device = s.device := rfl
@[simp] theorem State.complete_clearing (s : State) (k : SlotId) (st : TaskStatus) (d : List Byte) : (s.complete k st d).clearing = s.clearing := rfl
@[simp] theorem State.complete_watch (s : State) (k : SlotId) (st : TaskStatus) (d : List Byte) : (s.complete k st d).watch = s.watch := rfl
@[simp] theorem State.complete_misuse (s : State) (k : SlotId) (st : TaskStatus) (d : List Byte) : (s.complete k st d).misuse = s.misuse := rfl
@[simp] theorem State.complete_attentionEnable (s : State) (k : SlotId) (st : TaskStatus) (d : List Byte) : (s.complete k st d).attentionEnable = s.attentionEnable := rfl
@[simp] theorem State.complete_blockEdition (s : State) (k : SlotId) (st : TaskStatus) (d : List Byte) : (s.complete k st d).blockEdition = s.blockEdition := rfl
@[simp] theorem State.complete_blockDirty (s : State) (k : SlotId) (st : TaskStatus) (d : List Byte) : (s.complete k st d).blockDirty = s.blockDirty := rfl
@[simp] theorem State.complete_settings (s : State) (k : SlotId) (st : TaskStatus) (d : List Byte) : (s.complete k st d).settings = s.settings := rfl
@[simp] theorem State.complete_settingsStatus (s : State) (k : SlotId) (st : TaskStatus) (d : List Byte) : (s.complete k st d).settingsStatus = s.settingsStatus := rfl
@[simp] theorem State.complete_settingsExamined (s : State) (k : SlotId) (st : TaskStatus) (d : List Byte) : (s.complete k st d).settingsExamined = s.settingsExamined := rfl
@[simp] theorem State.complete_settingsApplied (s : State) (k : SlotId) (st : TaskStatus) (d : List Byte) : (s.complete k st d).settingsApplied = s.settingsApplied := rfl
@[simp] theorem State.complete_positions (s : State) (k : SlotId) (st : TaskStatus) (d : List Byte) : (s.complete k st d).positions = s.positions := rfl
@[simp] theorem State.complete_lineA (s : State) (k : SlotId) (st : TaskStatus) (d : List Byte) : (s.complete k st d).lineA = s.lineA := rfl
@[simp] theorem State.complete_lineB (s : State) (k : SlotId) (st : TaskStatus) (d : List Byte) : (s.complete k st d).lineB = s.lineB := rfl
@[simp] theorem State.complete_meas (s : State) (k : SlotId) (st : TaskStatus) (d : List Byte) : (s.complete k st d).meas = s.meas := rfl
@[simp] theorem State.complete_levels (s : State) (k : SlotId) (st : TaskStatus) (d : List Byte) : (s.complete k st d).levels = s.levels := rfl
@[simp] theorem State.complete_pulses (s : State) (k : SlotId) (st : TaskStatus) (d : List Byte) : (s.complete k st d).pulses = s.pulses := rfl
@[simp] theorem State.complete_inhibitN (s : State) (k : SlotId) (st : TaskStatus) (d : List Byte) : (s.complete k st d).inhibitN = s.inhibitN := rfl
@[simp] theorem State.complete_identity (s : State) (k : SlotId) (st : TaskStatus) (d : List Byte) : (s.complete k st d).identity = s.identity := rfl
@[simp] theorem State.complete_evictions (s : State) (k : SlotId) (st : TaskStatus) (d : List Byte) : (s.complete k st d).evictions = s.evictions := rfl
@[simp] theorem State.complete_retired (s : State) (k : SlotId) (st : TaskStatus) (d : List Byte) : (s.complete k st d).retired = s.retired := rfl
@[simp] theorem State.complete_retiredDropped (s : State) (k : SlotId) (st : TaskStatus) (d : List Byte) : (s.complete k st d).retiredDropped = s.retiredDropped := rfl
@[simp] theorem State.complete_rules (s : State) (k : SlotId) (st : TaskStatus) (d : List Byte) : (s.complete k st d).rules = s.rules := rfl
@[simp] theorem State.complete_ruleLoads (s : State) (k : SlotId) (st : TaskStatus) (d : List Byte) : (s.complete k st d).ruleLoads = s.ruleLoads := rfl
@[simp] theorem State.complete_classes (s : State) (k : SlotId) (st : TaskStatus) (d : List Byte) : (s.complete k st d).classes = s.classes := rfl
@[simp] theorem State.complete_keys (s : State) (k : SlotId) (st : TaskStatus) (d : List Byte) : (s.complete k st d).keys = s.keys := rfl
@[simp] theorem State.complete_permits (s : State) (k : SlotId) (st : TaskStatus) (d : List Byte) : (s.complete k st d).permits = s.permits := rfl
@[simp] theorem State.complete_free (s : State) (k : SlotId) (st : TaskStatus) (d : List Byte) : (s.complete k st d).free = s.free := rfl

@[simp] theorem State.completeFree_power (s : State) (k : SlotId) (st : TaskStatus) : (s.completeFree k st).power = s.power := rfl
@[simp] theorem State.completeFree_pending (s : State) (k : SlotId) (st : TaskStatus) : (s.completeFree k st).pending = s.pending := rfl
@[simp] theorem State.completeFree_device (s : State) (k : SlotId) (st : TaskStatus) : (s.completeFree k st).device = s.device := rfl
@[simp] theorem State.completeFree_clearing (s : State) (k : SlotId) (st : TaskStatus) : (s.completeFree k st).clearing = s.clearing := rfl
@[simp] theorem State.completeFree_watch (s : State) (k : SlotId) (st : TaskStatus) : (s.completeFree k st).watch = s.watch := rfl
@[simp] theorem State.completeFree_misuse (s : State) (k : SlotId) (st : TaskStatus) : (s.completeFree k st).misuse = s.misuse := rfl
@[simp] theorem State.completeFree_attentionEnable (s : State) (k : SlotId) (st : TaskStatus) : (s.completeFree k st).attentionEnable = s.attentionEnable := rfl
@[simp] theorem State.completeFree_blockEdition (s : State) (k : SlotId) (st : TaskStatus) : (s.completeFree k st).blockEdition = s.blockEdition := rfl
@[simp] theorem State.completeFree_blockDirty (s : State) (k : SlotId) (st : TaskStatus) : (s.completeFree k st).blockDirty = s.blockDirty := rfl
@[simp] theorem State.completeFree_settings (s : State) (k : SlotId) (st : TaskStatus) : (s.completeFree k st).settings = s.settings := rfl
@[simp] theorem State.completeFree_settingsStatus (s : State) (k : SlotId) (st : TaskStatus) : (s.completeFree k st).settingsStatus = s.settingsStatus := rfl
@[simp] theorem State.completeFree_settingsExamined (s : State) (k : SlotId) (st : TaskStatus) : (s.completeFree k st).settingsExamined = s.settingsExamined := rfl
@[simp] theorem State.completeFree_settingsApplied (s : State) (k : SlotId) (st : TaskStatus) : (s.completeFree k st).settingsApplied = s.settingsApplied := rfl
@[simp] theorem State.completeFree_positions (s : State) (k : SlotId) (st : TaskStatus) : (s.completeFree k st).positions = s.positions := rfl
@[simp] theorem State.completeFree_lineA (s : State) (k : SlotId) (st : TaskStatus) : (s.completeFree k st).lineA = s.lineA := rfl
@[simp] theorem State.completeFree_lineB (s : State) (k : SlotId) (st : TaskStatus) : (s.completeFree k st).lineB = s.lineB := rfl
@[simp] theorem State.completeFree_meas (s : State) (k : SlotId) (st : TaskStatus) : (s.completeFree k st).meas = s.meas := rfl
@[simp] theorem State.completeFree_levels (s : State) (k : SlotId) (st : TaskStatus) : (s.completeFree k st).levels = s.levels := rfl
@[simp] theorem State.completeFree_pulses (s : State) (k : SlotId) (st : TaskStatus) : (s.completeFree k st).pulses = s.pulses := rfl
@[simp] theorem State.completeFree_inhibitN (s : State) (k : SlotId) (st : TaskStatus) : (s.completeFree k st).inhibitN = s.inhibitN := rfl
@[simp] theorem State.completeFree_identity (s : State) (k : SlotId) (st : TaskStatus) : (s.completeFree k st).identity = s.identity := rfl
@[simp] theorem State.completeFree_evictions (s : State) (k : SlotId) (st : TaskStatus) : (s.completeFree k st).evictions = s.evictions := rfl
@[simp] theorem State.completeFree_retired (s : State) (k : SlotId) (st : TaskStatus) : (s.completeFree k st).retired = s.retired := rfl
@[simp] theorem State.completeFree_retiredDropped (s : State) (k : SlotId) (st : TaskStatus) : (s.completeFree k st).retiredDropped = s.retiredDropped := rfl
@[simp] theorem State.completeFree_rules (s : State) (k : SlotId) (st : TaskStatus) : (s.completeFree k st).rules = s.rules := rfl
@[simp] theorem State.completeFree_ruleLoads (s : State) (k : SlotId) (st : TaskStatus) : (s.completeFree k st).ruleLoads = s.ruleLoads := rfl
@[simp] theorem State.completeFree_classes (s : State) (k : SlotId) (st : TaskStatus) : (s.completeFree k st).classes = s.classes := rfl
@[simp] theorem State.completeFree_keys (s : State) (k : SlotId) (st : TaskStatus) : (s.completeFree k st).keys = s.keys := rfl
@[simp] theorem State.completeFree_permits (s : State) (k : SlotId) (st : TaskStatus) : (s.completeFree k st).permits = s.permits := rfl

/-! ### What the updates write -/

@[simp] theorem State.pos_setPos (s : State) (p : PosId) (x : Position) : (s.setPos p x).pos p = x := by
  simp [State.pos, State.setPos]

theorem State.pos_setPos_ne (s : State) {p q : PosId} (x : Position) (h : p ≠ q) : (s.setPos p x).pos q = s.pos q := by
  have : p.val ≠ q.val := fun e => h (Fin.ext e)
  simp [State.pos, State.setPos, this]

@[simp] theorem State.pos_modPos (s : State) (p : PosId) (f : Position → Position) :
    (s.modPos p f).pos p = f (s.pos p) := by
  simp [State.modPos]

theorem State.pos_modPos_ne (s : State) {p q : PosId} (f : Position → Position) (h : p ≠ q) :
    (s.modPos p f).pos q = s.pos q := by
  simp [State.modPos, State.pos_setPos_ne, h]

@[simp] theorem State.pos_mapPositions (s : State) (f : Position → Position) (p : PosId) :
    (s.mapPositions f).pos p = f (s.pos p) := by
  simp [State.pos, State.mapPositions]

@[simp] theorem State.line_setLine (s : State) (l : LineId) (x : LineCtl) : (s.setLine l x).line l = x := by
  cases l <;> rfl

theorem State.line_setLine_ne (s : State) {l m : LineId} (x : LineCtl) (h : l ≠ m) :
    (s.setLine l x).line m = s.line m := by
  cases l <;> cases m <;> first | rfl | exact absurd rfl h

@[simp] theorem State.slot_setSlot (s : State) (k : SlotId) (x : TaskSlot) : (s.setSlot k x).slot k = x := by
  simp [State.slot, State.setSlot]

theorem State.slot_setSlot_ne (s : State) {k j : SlotId} (x : TaskSlot) (h : k ≠ j) :
    (s.setSlot k x).slot j = s.slot j := by
  have : k.val ≠ j.val := fun e => h (Fin.ext e)
  simp [State.slot, State.setSlot, this]

/-- A state with the same positions has the same position. -/
theorem State.pos_congr {s t : State} (h : t.positions = s.positions) (p : PosId) : t.pos p = s.pos p := by
  simp [State.pos, h]

end Sys2Proof.Machine
end

