-- ==== Sys2Proof/Laws/Layout.lean ====
section
/-! SUPPORT. The sizes of the records the device writes (section 12.3 to 12.6), and the bytes of the exchange memory
that no posting and no completion reaches. -/
namespace Sys2Proof.Machine

/-! ### Sizes -/

@[simp] theorem leBytes_length (n v : Nat) : (leBytes n v).length = n := by simp [leBytes]
@[simp] theorem bytes8_length (n : Nat) : (bytes8 n).length = 1 := leBytes_length ..
@[simp] theorem bytes16_length (w : Word16) : (bytes16 w).length = 2 := leBytes_length ..
@[simp] theorem bytes32_length (w : Word32) : (bytes32 w).length = 4 := leBytes_length ..
@[simp] theorem bytes64_length (w : Word64) : (bytes64 w).length = 8 := leBytes_length ..

theorem length_flatMap_const {α β : Type} (f : α → List β) (n : Nat) (h : ∀ x, (f x).length = n) (l : List α) :
    (l.flatMap f).length = n * l.length := by
  induction l with
  | nil => simp
  | cons x xs ih => rw [List.flatMap_cons, List.length_append, h, ih, List.length_cons, Nat.mul_add]; omega

/-- The state half has 64 bytes. -/
@[simp] theorem Position.halfBytes_length (x : Position) : x.halfBytes.length = 64 := by
  unfold Position.halfBytes
  simp only [List.length_append]
  simp only [bytes16_length, bytes32_length, bytes64_length]
  simp only [List.length_cons]
  simp only [List.length_nil]

/-- The extension has 32 bytes. -/
@[simp] theorem Position.extensionBytes_length (x : Position) : x.extensionBytes.length = 32 := by
  unfold Position.extensionBytes
  simp only [List.length_append]
  simp only [bytes16_length, bytes32_length]
  simp only [List.length_cons]
  simp only [List.length_nil, List.length_replicate]

@[simp] theorem LineCtl.blockBytes_length (l : LineCtl) : l.blockBytes.length = 20 := by
  unfold LineCtl.blockBytes
  simp only [List.length_append]
  simp only [bytes8_length, bytes16_length]
  simp only [List.length_cons]
  simp only [List.length_nil]

/-- The first part of the device block has 128 bytes. -/
@[simp] theorem State.blockBytes_length (s : State) : s.blockBytes.length = 128 := by
  have h : (s.pulses.toList.flatMap bytes32).length = 32 := by
    rw [length_flatMap_const _ 4 bytes32_length]; simp
  unfold State.blockBytes
  simp only [List.length_append]
  simp only [bytes8_length, bytes16_length, bytes32_length, leBytes_length, h, Vector.length_toList,
    LineCtl.blockBytes_length]
  simp only [List.length_cons]
  simp only [List.length_nil]

/-- The second part of the device block has 144 bytes. -/
@[simp] theorem State.calBytes_length (s : State) : s.calBytes.length = 144 := by
  unfold State.calBytes
  rw [length_flatMap_const _ 6 (fun c => by simp)]
  simp

/-- A result has 126 bytes. -/
@[simp] theorem resultBytes_length (st : TaskStatus) (d : List Byte) : (resultBytes st d).length = 126 := by
  simp only [resultBytes, List.length_append, bytes16_length, List.length_take, List.length_replicate]
  omega

/-- How many bytes a free field has. -/
def FreeField.size : FreeField → Nat
  | .unused => 1
  | .bytes n => n
  | .oneOf _ => 1
  | .uid => 9
  | .released => 2

@[simp] theorem FreeField.draw_length (d i : Nat) (f : FreeField) : (f.draw d i).length = f.size := by
  cases f <;> simp [FreeField.draw, FreeField.size]

/-- Free data have the length of their fields. -/
@[simp] theorem freeData_length (d i : Nat) (fs : List FreeField) :
    (freeData d i fs).length = (fs.map FreeField.size).sum := by
  induction fs generalizing i with
  | nil => rfl
  | cons f fs ih => simp [freeData, ih]

/-- The data of every kind fit into a result. -/
theorem freeFields_size (d kind : Nat) : ((freeFields d kind).map FreeField.size).sum ≤ 124 := by
  unfold freeFields
  split <;> simp [FreeField.size, FreeField.flag, FreeField.failed, recordFields, rulesFields] <;> omega

/-! ### Fields at their offsets -/

/-- A byte of the first of two runs. -/
theorem byteAt_left {l m : List Byte} {i : Nat} (h : i < l.length) : byteAt (l ++ m) i = byteAt l i := by
  simp [byteAt, List.getElem?_append_left h]

/-- A byte of the second of two runs. -/
theorem byteAt_right {l m : List Byte} {i : Nat} (h : l.length ≤ i) : byteAt (l ++ m) i = byteAt m (i - l.length) := by
  simp [byteAt, List.getElem?_append_right h]

/-- A field that lies in the first of two runs. -/
theorem natAt_left {l m : List Byte} {i n : Nat} (h : i + n ≤ l.length) : natAt (l ++ m) i n = natAt l i n := by
  unfold natAt
  congr 1
  apply List.map_congr_left
  intro k hk
  have := List.mem_range.mp hk
  exact byteAt_left (by omega)

/-- A field that lies in the second of two runs. -/
theorem natAt_right {l m : List Byte} {i n : Nat} (h : l.length ≤ i) :
    natAt (l ++ m) i n = natAt m (i - l.length) n := by
  unfold natAt
  congr 1
  apply List.map_congr_left
  intro k hk
  rw [byteAt_right (by omega)]
  congr 1; omega

/-- Bytes put together again are the value, as far as they reach. -/
theorem ofLeBytes_leBytes (n v : Nat) : ofLeBytes (leBytes n v) = v % 256 ^ n := by
  induction n generalizing v with
  | zero => simp [leBytes, ofLeBytes, Nat.mod_one]
  | succ n ih =>
    have hs : leBytes (n + 1) v = BitVec.ofNat 8 v :: leBytes n (v / 256) := by
      simp only [leBytes, List.range_succ_eq_map, List.map_cons, List.map_map]
      congr 1
      apply List.map_congr_left
      intro k _
      simp only [Function.comp, Nat.shiftRight_eq_div_pow, Nat.div_div_eq_div_mul]
      congr 2
      rw [show 8 * k.succ = 8 + 8 * k by simp only [Nat.succ_eq_add_one]; omega, Nat.pow_add]
    rw [hs]
    simp only [ofLeBytes, ih, BitVec.toNat_ofNat]
    rw [show (256 : Nat) ^ (n + 1) = 256 * 256 ^ n by rw [Nat.pow_succ]; omega, Nat.mod_mul]

/-- A field of its own bytes. -/
theorem natAt_leBytes (n v : Nat) : natAt (leBytes n v) 0 n = v % 256 ^ n := by
  have h : (List.range n).map (fun k => byteAt (leBytes n v) (0 + k)) = leBytes n v := by
    apply List.ext_getElem (by simp)
    intro i h1 h2
    simp at h1
    simp [byteAt, h1]
  rw [natAt, h, ofLeBytes_leBytes]

/-- A word written reads back. -/
theorem word16At_bytes16 (w : Word16) : word16At (bytes16 w) 0 = w := by
  show BitVec.ofNat 16 (natAt (bytes16 w) 0 2) = w
  rw [bytes16, natAt_leBytes]; exact BitVec.eq_of_toNat_eq (by have := w.isLt; simp only [BitVec.toNat_ofNat]; omega)

/-- A double word written reads back. -/
theorem word32At_bytes32 (w : Word32) : word32At (bytes32 w) 0 = w := by
  show BitVec.ofNat 32 (natAt (bytes32 w) 0 4) = w
  rw [bytes32, natAt_leBytes]; exact BitVec.eq_of_toNat_eq (by have := w.isLt; simp only [BitVec.toNat_ofNat]; omega)

/-- A UID written reads back. -/
theorem word64At_bytes64 (w : Word64) : word64At (bytes64 w) 0 = w := by
  show BitVec.ofNat 64 (natAt (bytes64 w) 0 8) = w
  rw [bytes64, natAt_leBytes]; exact BitVec.eq_of_toNat_eq (by have := w.isLt; simp only [BitVec.toNat_ofNat]; omega)

/-! ### What the device does not write -/

theorem postBlock_read (s : State) {a : Nat} (ha : a < Memory.size) (h1 : 128 ≤ a)
    (h2 : ¬ (0x0D00 ≤ a ∧ a < 0x0D90)) : s.postBlock.mem.read a = s.mem.read a := by
  simp only [State.postBlock]
  rw [Memory.read_write_ne _ _ _ (by simp only [State.calBytes_length, calBlockAddr]; omega) ha,
    Memory.read_write_ne _ _ _ (by simp only [State.blockBytes_length, deviceBlockAddr]; omega) ha]

theorem postHalf_read (s : State) (p : PosId) {a : Nat} (ha : a < Memory.size)
    (h1 : ¬ (stateHalfAddr p ≤ a ∧ a < stateHalfAddr p + 64))
    (h2 : ¬ (extensionAddr p ≤ a ∧ a < extensionAddr p + 32)) : (s.postHalf p).mem.read a = s.mem.read a := by
  simp only [State.postHalf]
  rw [Memory.read_write_ne _ _ _ (by simp only [Position.extensionBytes_length]; exact h2) ha,
    Memory.read_write_ne _ _ _ (by simp only [Position.halfBytes_length]; exact h1) ha]

theorem complete_read (s : State) (k : SlotId) (st : TaskStatus) (d : List Byte) {a : Nat} (ha : a < Memory.size)
    (h1 : ¬ (slotAddr k ≤ a ∧ a < slotAddr k + 2)) (h2 : ¬ (slotAddr k + 0x82 ≤ a ∧ a < slotAddr k + 0x100)) :
    (s.complete k st d).mem.read a = s.mem.read a := by
  have hr : ∀ m : Memory, (m.write (slotAddr k + 0x82) (resultBytes st d)).read a = m.read a := fun m =>
    Memory.read_write_ne _ _ _ (by simp only [resultBytes_length]; omega) ha
  simp only [State.complete]
  split
  · exact hr _
  · unfold Memory.writeWord
    rw [Memory.read_write_ne _ _ _ (by simp only [bytes16_length]; omega) ha, hr]

/-! ### Runs of bytes -/

/-- Bytes read back where they were written. -/
theorem Memory.bytes_write (m : Memory) (a : Nat) (bs : List Byte) (h : a + bs.length ≤ Memory.size) :
    (m.write a bs).bytes a bs.length = bs := by
  apply List.ext_getElem (by simp [Memory.bytes])
  intro i h1 h2
  simp only [Memory.bytes, List.length_map, List.length_range] at h1
  simp only [Memory.bytes, List.getElem_map, List.getElem_range]
  rw [Memory.read_write _ _ _ (by omega), if_pos (by omega)]
  simp [h1]

/-- A run of bytes apart from what was written reads as before. -/
theorem Memory.bytes_write_ne (m : Memory) (a n b : Nat) (bs : List Byte) (h : a + n ≤ Memory.size)
    (hd : b + bs.length ≤ a ∨ a + n ≤ b) : (m.write b bs).bytes a n = m.bytes a n := by
  simp only [Memory.bytes]
  apply List.map_congr_left
  intro i hi
  have := List.mem_range.mp hi
  exact Memory.read_write_ne _ _ _ (by omega) (by omega)

/-! ### Words -/

/-- A word is read as it was where none of its two bytes was written. -/
theorem Memory.word_congr {m n : Memory} {a : Nat} (h0 : n.read a = m.read a) (h1 : n.read (a + 1) = m.read (a + 1)) :
    n.word a = m.word a := by
  have : n.bytes a 2 = m.bytes a 2 := by
    simp only [Memory.bytes]
    show [n.read (a + 0), n.read (a + 1)] = [m.read (a + 0), m.read (a + 1)]
    simp [h0, h1]
  simp only [Memory.word, this]

/-- The two bytes of a word, put together again, are the word. -/
theorem ofLeBytes_bytes16 (w : Word16) : BitVec.ofNat 16 (ofLeBytes (bytes16 w)) = w := by
  apply BitVec.eq_of_toNat_eq
  have h : bytes16 w = [BitVec.ofNat 8 (w.toNat >>> 0), BitVec.ofNat 8 (w.toNat >>> 8)] := rfl
  rw [h]
  simp only [ofLeBytes, BitVec.toNat_ofNat, Nat.shiftRight_eq_div_pow]
  have := w.isLt
  omega

/-- A word reads as it was last written. -/
theorem Memory.word_writeWord (m : Memory) {a : Nat} (w : Word16) (h : a + 1 < Memory.size) :
    (m.writeWord a w).word a = w := by
  have hb : (m.writeWord a w).bytes a 2 = bytes16 w := by
    have e0 : (m.writeWord a w).read (a + 0) = BitVec.ofNat 8 (w.toNat >>> 0) := by
      unfold Memory.writeWord
      rw [Memory.read_write _ _ _ (by omega), if_pos (by simp)]
      simp [bytes16, leBytes]
    have e1 : (m.writeWord a w).read (a + 1) = BitVec.ofNat 8 (w.toNat >>> 8) := by
      unfold Memory.writeWord
      rw [Memory.read_write _ _ _ (by omega), if_pos (by simp)]
      have : a + 1 - a = 1 := by omega
      rw [this]
      simp [bytes16, leBytes, List.range_succ]
    show [(m.writeWord a w).read (a + 0), (m.writeWord a w).read (a + 1)] = _
    rw [e0, e1]; rfl
  rw [Memory.word, hb, ofLeBytes_bytes16]

end Sys2Proof.Machine
end

