-- ==== Sys2Proof/Laws/Frame.lean ====
section
/-! SUPPORT. What a piece of the device's own work can reach. Every operation of the sequencers, the lines, the
measurement unit, the verdict unit, the permit unit and the task unit leaves the `frame` of the state as it was, and
keeps the canonical form of the exchange memory: one lemma of each kind per operation, which later proofs cite
instead of unfolding it. -/
namespace Sys2Proof.Machine

/-- The canonical form of the exchange memory. -/
def State.memOk (s : State) : Prop := s.mem.wf = true

theorem hostBytes_congr {m n : Memory} (h : ∀ a, hostByte a = true → n.read a = m.read a) :
    n.hostBytes = m.hostBytes := by
  unfold Memory.hostBytes
  exact List.map_congr_left (fun a ha => h a (List.mem_filter.mp ha).2)

theorem read_of_hostBytes {m n : Memory} (h : n.hostBytes = m.hostBytes) {a : Nat} (ha : hostByte a = true) :
    n.read a = m.read a := by
  unfold Memory.hostBytes at h
  refine List.map_inj_left.mp h a (List.mem_filter.mpr ⟨?_, ha⟩)
  simp only [hostByte, decide_eq_true_eq] at ha
  exact List.mem_range.mpr ha.1

@[simp] theorem hostBytes_postBlock (s : State) : s.postBlock.mem.hostBytes = s.mem.hostBytes := by
  apply hostBytes_congr
  intro a h
  simp only [hostByte, decide_eq_true_eq] at h
  exact postBlock_read s h.1 (by omega) (by omega)

@[simp] theorem hostBytes_postHalf (s : State) (p : PosId) : (s.postHalf p).mem.hostBytes = s.mem.hostBytes := by
  apply hostBytes_congr
  intro a h
  simp only [hostByte, decide_eq_true_eq] at h
  obtain ⟨p, hp⟩ := p
  exact postHalf_read s _ h.1 (by simp only [stateHalfAddr, positionAddr]; omega) (by simp only [extensionAddr]; omega)

@[simp] theorem hostBytes_complete (s : State) (k : SlotId) (st : TaskStatus) (d : List Byte) :
    (s.complete k st d).mem.hostBytes = s.mem.hostBytes := by
  apply hostBytes_congr
  intro a h
  simp only [hostByte, decide_eq_true_eq] at h
  obtain ⟨k, hk⟩ := k
  exact complete_read s _ _ _ h.1 (by simp only [slotAddr]; omega) (by simp only [slotAddr]; omega)

theorem frame_foldl {α : Type} (f : State → α → State) (h : ∀ s a, (f s a).frame = s.frame) (l : List α) (s : State) :
    (l.foldl f s).frame = s.frame := by
  induction l generalizing s with
  | nil => rfl
  | cons a l ih => rw [List.foldl_cons, ih, h]

theorem memOk_foldl {α : Type} (f : State → α → State) (h : ∀ s a, s.memOk → (f s a).memOk) (l : List α) (s : State)
    (hs : s.memOk) : (l.foldl f s).memOk := by
  induction l generalizing s with
  | nil => exact hs
  | cons a l ih => exact ih _ (h _ _ hs)

@[simp] theorem State.frame_setPos (s : State) (p : PosId) (x : Position) : (s.setPos p x).frame = s.frame := by simp [State.frame]
@[simp] theorem State.memOk_setPos (s : State) (p : PosId) (x : Position) : (s.setPos p x).memOk ↔ s.memOk := by simp [State.memOk]
@[simp] theorem State.frame_modPos (s : State) (p : PosId) (f : Position → Position) : (s.modPos p f).frame = s.frame := by simp [State.frame]
@[simp] theorem State.memOk_modPos (s : State) (p : PosId) (f : Position → Position) : (s.modPos p f).memOk ↔ s.memOk := by simp [State.memOk]
@[simp] theorem State.frame_setLine (s : State) (l : LineId) (x : LineCtl) : (s.setLine l x).frame = s.frame := by simp [State.frame]
@[simp] theorem State.memOk_setLine (s : State) (l : LineId) (x : LineCtl) : (s.setLine l x).memOk ↔ s.memOk := by simp [State.memOk]
@[simp] theorem State.frame_modLine (s : State) (l : LineId) (f : LineCtl → LineCtl) : (s.modLine l f).frame = s.frame := by simp [State.frame]
@[simp] theorem State.memOk_modLine (s : State) (l : LineId) (f : LineCtl → LineCtl) : (s.modLine l f).memOk ↔ s.memOk := by simp [State.memOk]
@[simp] theorem State.frame_setSlot (s : State) (k : SlotId) (x : TaskSlot) : (s.setSlot k x).frame = s.frame := by simp [State.frame]
@[simp] theorem State.memOk_setSlot (s : State) (k : SlotId) (x : TaskSlot) : (s.setSlot k x).memOk ↔ s.memOk := by simp [State.memOk]
@[simp] theorem State.frame_mapPositions (s : State) (f : Position → Position) : (s.mapPositions f).frame = s.frame := by simp [State.frame]
@[simp] theorem State.memOk_mapPositions (s : State) (f : Position → Position) : (s.mapPositions f).memOk ↔ s.memOk := by simp [State.memOk]
@[simp] theorem State.frame_draw (s : State) : (s.draw).frame = s.frame := by simp [State.frame]
@[simp] theorem State.memOk_draw (s : State) : (s.draw).memOk ↔ s.memOk := by simp [State.memOk]
@[simp] theorem State.frame_touchBlock (s : State) : (s.touchBlock).frame = s.frame := by simp [State.frame]
@[simp] theorem State.memOk_touchBlock (s : State) : (s.touchBlock).memOk ↔ s.memOk := by simp [State.memOk]
@[simp] theorem State.frame_attend (s : State) (r : BitVec 4) : (s.attend r).frame = s.frame := by simp [State.frame]
@[simp] theorem State.memOk_attend (s : State) (r : BitVec 4) : (s.attend r).memOk ↔ s.memOk := by simp [State.memOk]

@[simp] theorem State.frame_settlePermits (s : State) : (s.settlePermits).frame = s.frame := by
  simp [State.frame, State.settlePermits]
@[simp] theorem State.memOk_settlePermits (s : State) (h : s.memOk) : (s.settlePermits).memOk := by
  simpa [State.memOk] using h
@[simp] theorem State.frame_postBlock (s : State) : (s.postBlock).frame = s.frame := by
  simp [State.frame]
@[simp] theorem State.memOk_postBlock (s : State) (h : s.memOk) : (s.postBlock).memOk := by
  unfold State.memOk; exact Memory.wf_write (Memory.wf_write h _ _) _ _
@[simp] theorem State.frame_postHalf (s : State) (p : PosId) : (s.postHalf p).frame = s.frame := by
  simp [State.frame]
@[simp] theorem State.memOk_postHalf (s : State) (p : PosId) (h : s.memOk) : (s.postHalf p).memOk := by
  unfold State.memOk; exact Memory.wf_write (Memory.wf_write h _ _) _ _
@[simp] theorem State.frame_complete (s : State) (k : SlotId) (st : TaskStatus) (d : List Byte) : (s.complete k st d).frame = s.frame := by
  simp [State.frame]
@[simp] theorem State.memOk_complete (s : State) (k : SlotId) (st : TaskStatus) (d : List Byte) (h : s.memOk) : (s.complete k st d).memOk := by
  unfold State.memOk State.complete; dsimp only; split
  · exact Memory.wf_write h _ _
  · exact Memory.wf_writeWord (Memory.wf_write h _ _) _ _
@[simp] theorem State.frame_completeFree (s : State) (k : SlotId) (st : TaskStatus) : (s.completeFree k st).frame = s.frame := by
  unfold State.completeFree; (try dsimp only); (repeat' split) <;> first | (simp; done) | rfl
@[simp] theorem State.memOk_completeFree (s : State) (k : SlotId) (st : TaskStatus) (h : s.memOk) : (s.completeFree k st).memOk := by
  unfold State.completeFree; (try dsimp only); (repeat' split) <;> first | (simp (maxDischargeDepth := 20) [h]; done) | exact h
@[simp] theorem State.frame_completeAllFree (s : State) (ks : List SlotId) (st : TaskStatus) : (s.completeAllFree ks st).frame = s.frame := by
  exact frame_foldl _ (fun _ _ => by simp) _ _
@[simp] theorem State.memOk_completeAllFree (s : State) (ks : List SlotId) (st : TaskStatus) (h : s.memOk) : (s.completeAllFree ks st).memOk := by
  exact memOk_foldl _ (fun _ _ h => by simp [h]) _ _ h
@[simp] theorem State.frame_evaluatePermits (s : State) : (s.evaluatePermits).frame = s.frame := by
  unfold State.evaluatePermits; (try dsimp only); (repeat' split) <;> first | (simp; done) | rfl
@[simp] theorem State.memOk_evaluatePermits (s : State) (h : s.memOk) : (s.evaluatePermits).memOk := by
  unfold State.evaluatePermits; (try dsimp only); (repeat' split) <;> first | (simp (maxDischargeDepth := 20) [h]; done) | exact h
@[simp] theorem State.frame_evaluateAndPost (s : State) : (s.evaluateAndPost).frame = s.frame := by
  unfold State.evaluateAndPost; (try dsimp only); (repeat' split) <;> first | (simp; done) | rfl
@[simp] theorem State.memOk_evaluateAndPost (s : State) (h : s.memOk) : (s.evaluateAndPost).memOk := by
  unfold State.evaluateAndPost; (try dsimp only); (repeat' split) <;> first | (simp (maxDischargeDepth := 20) [h]; done) | exact h
@[simp] theorem State.frame_placeLine (s : State) (l : LineId) (r : LineRequest) : (s.placeLine l r).frame = s.frame := by
  unfold State.placeLine; (try dsimp only); (repeat' split) <;> first | (simp; done) | rfl
@[simp] theorem State.memOk_placeLine (s : State) (l : LineId) (r : LineRequest) (h : s.memOk) : (s.placeLine l r).memOk := by
  unfold State.placeLine; (try dsimp only); (repeat' split) <;> first | (simp (maxDischargeDepth := 20) [h]; done) | exact h
@[simp] theorem State.frame_withdrawLines (s : State) (q : Requester) : (s.withdrawLines q).frame = s.frame := by
  simp [State.frame, State.withdrawLines]
@[simp] theorem State.memOk_withdrawLines (s : State) (q : Requester) (h : s.memOk) : (s.withdrawLines q).memOk := by
  exact h
@[simp] theorem State.frame_examineQuiet (s : State) (l : LineId) : (s.examineQuiet l).frame = s.frame := by
  unfold State.examineQuiet; (try dsimp only); (repeat' split) <;> first | (simp; done) | rfl
@[simp] theorem State.memOk_examineQuiet (s : State) (l : LineId) (h : s.memOk) : (s.examineQuiet l).memOk := by
  unfold State.examineQuiet; (try dsimp only); (repeat' split) <;> first | (simp (maxDischargeDepth := 20) [h]; done) | exact h
@[simp] theorem State.frame_clearHeldBack (s : State) (l : LineId) : (s.clearHeldBack l).frame = s.frame := by
  unfold State.clearHeldBack; (try dsimp only); (repeat' split) <;> first | (simp; done) | rfl
@[simp] theorem State.memOk_clearHeldBack (s : State) (l : LineId) (h : s.memOk) : (s.clearHeldBack l).memOk := by
  unfold State.clearHeldBack; (try dsimp only); (repeat' split) <;> first | (simp (maxDischargeDepth := 20) [h]; done) | exact h
@[simp] theorem State.frame_completeReset (s : State) (w : ResetWait) : (s.completeReset w).frame = s.frame := by
  unfold State.completeReset; (try dsimp only); (repeat' split) <;> first | (simp; done) | rfl
@[simp] theorem State.memOk_completeReset (s : State) (w : ResetWait) (h : s.memOk) : (s.completeReset w).memOk := by
  unfold State.completeReset; (try dsimp only); (repeat' split) <;> first | (simp (maxDischargeDepth := 20) [h]; done) | exact h
@[simp] theorem State.frame_endResets (s : State) (l : LineId) : (s.endResets l).frame = s.frame := by
  unfold State.endResets; split; · rfl
  · dsimp only; rw [frame_foldl _ (fun _ _ => by simp)]; simp
@[simp] theorem State.memOk_endResets (s : State) (l : LineId) (h : s.memOk) : (s.endResets l).memOk := by
  unfold State.endResets; split; · exact h
  · exact memOk_foldl _ (fun _ _ h => by simp [h]) _ _ (by simp [h])
@[simp] theorem State.frame_modMeasKeep (s : State) (f : MeasUnit → MeasUnit) (hf : (f s.meas).cal = s.meas.cal) : (s.modMeas f).frame = s.frame := by
  simp [State.frame, State.modMeas, hf]
@[simp] theorem State.memOk_modMeasKeep (s : State) (f : MeasUnit → MeasUnit) (hf : (f s.meas).cal = s.meas.cal) (h : s.memOk) : (s.modMeas f).memOk := by
  have _ := hf; exact h
@[simp] theorem State.frame_placeMeas (s : State) (r : MeasRequest) : (s.placeMeas r).frame = s.frame := by
  simp [State.placeMeas, State.frame, State.modMeas]
@[simp] theorem State.memOk_placeMeas (s : State) (r : MeasRequest) (h : s.memOk) : (s.placeMeas r).memOk := by
  exact h
@[simp] theorem State.frame_withdrawMeas (s : State) (p : PosId) : (s.withdrawMeas p).frame = s.frame := by
  simp [State.withdrawMeas, State.frame, State.modMeas]
@[simp] theorem State.memOk_withdrawMeas (s : State) (p : PosId) (h : s.memOk) : (s.withdrawMeas p).memOk := by
  exact h
@[simp] theorem State.frame_advanceWaiting (s : State) (l : List MeasRequest) : (advanceWaiting l s).frame = s.frame := by
  induction l generalizing s with
  | nil => simp [advanceWaiting, State.frame, State.modMeas]
  | cons r rs ih =>
    unfold advanceWaiting
    split
    · split <;> simp [ih]
    · rfl
@[simp] theorem State.memOk_advanceWaiting (s : State) (l : List MeasRequest) (h : s.memOk) : (advanceWaiting l s).memOk := by
  induction l generalizing s with
  | nil => exact h
  | cons r rs ih =>
    unfold advanceWaiting
    split
    · split
      · exact ih _ (by simp [h])
      · exact ih _ h
    · exact h
@[simp] theorem State.frame_advanceCalibration (s : State) : (s.advanceCalibration).frame = s.frame := by
  unfold State.advanceCalibration; (try dsimp only); (repeat' split) <;> first | (simp; done) | rfl
@[simp] theorem State.memOk_advanceCalibration (s : State) (h : s.memOk) : (s.advanceCalibration).memOk := by
  unfold State.advanceCalibration; (try dsimp only); (repeat' split) <;> first | (simp (maxDischargeDepth := 20) [h]; done) | exact h
@[simp] theorem State.frame_modRecord (s : State) (u : Word64) (f : IdentityRecord → IdentityRecord) : (s.modRecord u f).frame = s.frame := by
  unfold State.modRecord; (repeat' split) <;> first | (simp; done) | simp [State.frame]
@[simp] theorem State.memOk_modRecord (s : State) (u : Word64) (f : IdentityRecord → IdentityRecord) (h : s.memOk) : (s.modRecord u f).memOk := by
  unfold State.modRecord; (repeat' split) <;> exact h
@[simp] theorem State.frame_raiseKnown (s : State) (u : Word64) (c : Word32) : (s.raiseKnown u c).frame = s.frame := by
  unfold State.raiseKnown; (repeat' split) <;> first | (simp; done) | simp [State.frame]
@[simp] theorem State.memOk_raiseKnown (s : State) (u : Word64) (c : Word32) (h : s.memOk) : (s.raiseKnown u c).memOk := by
  unfold State.raiseKnown; (repeat' split) <;> exact h
@[simp] theorem State.frame_leaveContests (s : State) (q : PosId) (keep : Option Word64) : (s.leaveContests q keep).frame = s.frame := by
  unfold State.leaveContests; (repeat' split) <;> first | (simp; done) | simp [State.frame]
@[simp] theorem State.memOk_leaveContests (s : State) (q : PosId) (keep : Option Word64) (h : s.memOk) : (s.leaveContests q keep).memOk := by
  unfold State.leaveContests; (repeat' split) <;> exact h
@[simp] theorem State.frame_unbind (s : State) (q : PosId) : (s.unbind q).frame = s.frame := by
  unfold State.unbind; (repeat' split) <;> first | (simp; done) | simp [State.frame]
@[simp] theorem State.memOk_unbind (s : State) (q : PosId) (h : s.memOk) : (s.unbind q).memOk := by
  unfold State.unbind; (repeat' split) <;> exact h
@[simp] theorem State.frame_makeRoom (s : State) : (s.makeRoom).frame = s.frame := by
  unfold State.makeRoom; (repeat' split) <;> first | (simp; done) | simp [State.frame]
@[simp] theorem State.memOk_makeRoom (s : State) (h : s.memOk) : (s.makeRoom).memOk := by
  unfold State.makeRoom; (repeat' split) <;> exact h
@[simp] theorem State.frame_placeRecordLast (s : State) (r : IdentityRecord) : (s.placeRecordLast r).frame = s.frame := by
  unfold State.placeRecordLast; (repeat' split) <;> first | (simp; done) | simp [State.frame]
@[simp] theorem State.memOk_placeRecordLast (s : State) (r : IdentityRecord) (h : s.memOk) : (s.placeRecordLast r).memOk := by
  unfold State.placeRecordLast; (repeat' split) <;> exact h
@[simp] theorem State.frame_setUid (s : State) (q : PosId) (u : UidHeld) : (s.setUid q u).frame = s.frame := by
  unfold State.setUid; (repeat' split) <;> first | (simp; done) | simp [State.frame]
@[simp] theorem State.memOk_setUid (s : State) (q : PosId) (u : UidHeld) (h : s.memOk) : (s.setUid q u).memOk := by
  unfold State.setUid; (repeat' split) <;> exact h
@[simp] theorem State.frame_retire (s : State) (u : Word64) : (s.retire u).frame = s.frame := by
  unfold State.retire; (repeat' split) <;> first | (simp; done) | simp [State.frame]
@[simp] theorem State.memOk_retire (s : State) (u : Word64) (h : s.memOk) : (s.retire u).memOk := by
  unfold State.retire; (repeat' split) <;> exact h
@[simp] theorem State.frame_unretire (s : State) (u : Word64) : (s.unretire u).frame = s.frame := by
  unfold State.unretire; (repeat' split) <;> first | (simp; done) | simp [State.frame]
@[simp] theorem State.memOk_unretire (s : State) (u : Word64) (h : s.memOk) : (s.unretire u).memOk := by
  unfold State.unretire; (repeat' split) <;> exact h
@[simp] theorem State.frame_sight (s : State) (q : PosId) (u : Word64) (cls : Word16) (c : Word32) : (s.sight q u cls c).frame = s.frame := by
  unfold State.sight; (try dsimp only); (repeat' split) <;> first | (simp; done) | rfl
@[simp] theorem State.memOk_sight (s : State) (q : PosId) (u : Word64) (cls : Word16) (c : Word32) (h : s.memOk) : (s.sight q u cls c).memOk := by
  unfold State.sight; (try dsimp only); (repeat' split) <;> first | (simp (maxDischargeDepth := 20) [h]; done) | exact h
@[simp] theorem State.frame_bar (s : State) (p : PosId) : (s.bar p).frame = s.frame := by
  unfold State.bar; (try dsimp only); (repeat' split) <;> first | (simp; done) | rfl
@[simp] theorem State.memOk_bar (s : State) (p : PosId) (h : s.memOk) : (s.bar p).memOk := by
  unfold State.bar; (try dsimp only); (repeat' split) <;> first | (simp (maxDischargeDepth := 20) [h]; done) | exact h
@[simp] theorem State.frame_countReject (s : State) (p : PosId) (r : Result) : (s.countReject p r).frame = s.frame := by
  unfold State.countReject; (try dsimp only); (repeat' split) <;> first | (simp; done) | rfl
@[simp] theorem State.memOk_countReject (s : State) (p : PosId) (r : Result) (h : s.memOk) : (s.countReject p r).memOk := by
  unfold State.countReject; (try dsimp only); (repeat' split) <;> first | (simp (maxDischargeDepth := 20) [h]; done) | exact h
@[simp] theorem State.frame_reject (s : State) (p : PosId) (r : Result) : (s.reject p r).frame = s.frame := by
  unfold State.reject; (try dsimp only); (repeat' split) <;> first | (simp; done) | rfl
@[simp] theorem State.memOk_reject (s : State) (p : PosId) (r : Result) (h : s.memOk) : (s.reject p r).memOk := by
  unfold State.reject; (try dsimp only); (repeat' split) <;> first | (simp (maxDischargeDepth := 20) [h]; done) | exact h
@[simp] theorem State.frame_doubtResult (s : State) (p : PosId) (r : Result) : (s.doubtResult p r).frame = s.frame := by
  unfold State.doubtResult; (try dsimp only); (repeat' split) <;> first | (simp; done) | rfl
@[simp] theorem State.memOk_doubtResult (s : State) (p : PosId) (r : Result) (h : s.memOk) : (s.doubtResult p r).memOk := by
  unfold State.doubtResult; (try dsimp only); (repeat' split) <;> first | (simp (maxDischargeDepth := 20) [h]; done) | exact h
@[simp] theorem State.frame_forgive (s : State) (p : PosId) (b : Word16) (r : Result) : (s.forgive p b r).frame = s.frame := by
  unfold State.forgive; (try dsimp only); (repeat' split) <;> first | (simp; done) | rfl
@[simp] theorem State.memOk_forgive (s : State) (p : PosId) (b : Word16) (r : Result) (h : s.memOk) : (s.forgive p b r).memOk := by
  unfold State.forgive; (try dsimp only); (repeat' split) <;> first | (simp (maxDischargeDepth := 20) [h]; done) | exact h
@[simp] theorem State.frame_cleanResult (s : State) (p : PosId) (r : Result) : (s.cleanResult p r).frame = s.frame := by
  unfold State.cleanResult; (try dsimp only); (repeat' split) <;> first | (simp; done) | rfl
@[simp] theorem State.memOk_cleanResult (s : State) (p : PosId) (r : Result) (h : s.memOk) : (s.cleanResult p r).memOk := by
  unfold State.cleanResult; (try dsimp only); (repeat' split) <;> first | (simp (maxDischargeDepth := 20) [h]; done) | exact h
@[simp] theorem State.frame_applyResult (s : State) (p : PosId) (r : Result) : (s.applyResult p r).frame = s.frame := by
  unfold State.applyResult; (try dsimp only); (repeat' split) <;> first | (simp; done) | rfl
@[simp] theorem State.memOk_applyResult (s : State) (p : PosId) (r : Result) (h : s.memOk) : (s.applyResult p r).memOk := by
  unfold State.applyResult; (try dsimp only); (repeat' split) <;> first | (simp (maxDischargeDepth := 20) [h]; done) | exact h
@[simp] theorem State.frame_handResult (s : State) (p : PosId) (r : Result) : (s.handResult p r).frame = s.frame := by
  unfold State.handResult; (try dsimp only); (repeat' split) <;> first | (simp; done) | rfl
@[simp] theorem State.memOk_handResult (s : State) (p : PosId) (r : Result) (h : s.memOk) : (s.handResult p r).memOk := by
  unfold State.handResult; (try dsimp only); (repeat' split) <;> first | (simp (maxDischargeDepth := 20) [h]; done) | exact h
@[simp] theorem State.frame_releasePosition (s : State) (p : PosId) (u : Word64) : (s.releasePosition p u).frame = s.frame := by
  unfold State.releasePosition; (try dsimp only); (repeat' split) <;> first | (simp; done) | rfl
@[simp] theorem State.memOk_releasePosition (s : State) (p : PosId) (u : Word64) (h : s.memOk) : (s.releasePosition p u).memOk := by
  unfold State.releasePosition; (try dsimp only); (repeat' split) <;> first | (simp (maxDischargeDepth := 20) [h]; done) | exact h
@[simp] theorem State.frame_postIfRetiredChanged (s : State) (old : List Word64) : (s.postIfRetiredChanged old).frame = s.frame := by
  unfold State.postIfRetiredChanged; (try dsimp only); (repeat' split) <;> first | (simp; done) | rfl
@[simp] theorem State.memOk_postIfRetiredChanged (s : State) (old : List Word64) (h : s.memOk) : (s.postIfRetiredChanged old).memOk := by
  unfold State.postIfRetiredChanged; (try dsimp only); (repeat' split) <;> first | (simp (maxDischargeDepth := 20) [h]; done) | exact h
@[simp] theorem State.frame_releaseHeld (s : State) (k : SlotId) (p : PosId) (u : Word64) : (s.releaseHeld k p u).frame = s.frame := by
  unfold State.releaseHeld; (try dsimp only); (repeat' split) <;> first | (simp; done) | rfl
@[simp] theorem State.memOk_releaseHeld (s : State) (k : SlotId) (p : PosId) (u : Word64) (h : s.memOk) : (s.releaseHeld k p u).memOk := by
  unfold State.releaseHeld; (try dsimp only); (repeat' split) <;> first | (simp (maxDischargeDepth := 20) [h]; done) | exact h
@[simp] theorem State.frame_removeUid (s : State) (k : SlotId) (u : Word64) (q : Option PosId) : (s.removeUid k u q).frame = s.frame := by
  unfold State.removeUid; (try dsimp only); (repeat' split) <;> first | (simp; done) | rfl
@[simp] theorem State.memOk_removeUid (s : State) (k : SlotId) (u : Word64) (q : Option PosId) (h : s.memOk) : (s.removeUid k u q).memOk := by
  unfold State.removeUid; (try dsimp only); (repeat' split) <;> first | (simp (maxDischargeDepth := 20) [h]; done) | exact h

/-! ### Entries that leave the head of the watch queue -/

/-- The frame moves in nothing but entries that have left the head of the watch queue. -/
def State.framePast (s t : State) : Prop := ∃ n, t.frame = { s.frame with watch := s.watch.drop n }

theorem State.framePast_of_eq {s t : State} (h : t.frame = s.frame) : s.framePast t := ⟨0, h⟩

theorem State.framePast_of_right {s t u : State} (h : s.framePast t) (e : u.frame = t.frame) : s.framePast u := by
  obtain ⟨n, h⟩ := h
  exact ⟨n, e.trans h⟩

theorem State.framePast_of_left {s t u : State} (e : t.frame = s.frame) (h : t.framePast u) : s.framePast u := by
  obtain ⟨n, h⟩ := h
  have w : t.watch = s.watch := congrArg Frame.watch e
  exact ⟨n, by rw [h, e, w]⟩

@[simp] theorem State.frame_takeSlot (s : State) (k : SlotId) : (s.takeSlot k).frame = s.frame := by
  have e : (s.takeSlot k).mem.hostBytes = s.mem.hostBytes := hostBytes_congr (fun a ha => by
    obtain ⟨k, hk⟩ := k
    simp only [hostByte, decide_eq_true_eq] at ha
    exact Memory.read_write_ne _ _ _ (by simp only [bytes16_length, slotAddr]; omega) ha.1)
  simp only [State.frame, e]
  rfl

@[simp] theorem State.memOk_takeSlot (s : State) (k : SlotId) (h : s.memOk) : (s.takeSlot k).memOk :=
  Memory.wf_writeWord h _ _

/-- A READY slot that is taken leaves the head of the watch queue; the rest of the frame stays. -/
theorem State.framePast_takeReady {s t : State} {k : SlotId} (h : s.takeReady = some (k, t)) : s.framePast t := by
  unfold State.takeReady State.takeOwner State.takeEntry at h
  by_cases hc : s.power = .on ∧ s.device ≠ .starting
  · rw [if_pos hc] at h
    rcases hw : s.watch with _ | ⟨i, rest⟩
    · simp [hw] at h
    · simp only [hw] at h
      rcases hs : slotOfWatch i with _ | j
      · simp [hs] at h
      · simp only [hs, Option.map_some] at h
        split at h
        · cases h
          exact ⟨1, by rw [State.frame_takeSlot, hw]; rfl⟩
        · simp at h
  · simp [hc] at h

theorem State.memOk_takeReady {s t : State} {k : SlotId} (h : s.takeReady = some (k, t)) (hs : s.memOk) : t.memOk := by
  unfold State.takeReady State.takeOwner State.takeEntry at h
  by_cases hc : s.power = .on ∧ s.device ≠ .starting
  · rw [if_pos hc] at h
    rcases hw : s.watch with _ | ⟨i, rest⟩
    · simp [hw] at h
    · simp only [hw] at h
      rcases hs' : slotOfWatch i with _ | j
      · simp [hs'] at h
      · simp only [hs', Option.map_some] at h
        split at h
        · cases h
          exact State.memOk_takeSlot _ _ hs
        · simp at h
  · simp [hc] at h

theorem State.removalAtHead_cases {s t : State} {p : PosId} {u : Word64} (h : s.removalAtHead p u = some t) :
    ∃ k r, s.takeReady = some (k, r) ∧ (t = r.releaseHeld k p u ∨ t = r.removeUid k u (r.barredWith u)) := by
  unfold State.removalAtHead at h
  rcases hr : s.takeReady with _ | ⟨k, r⟩
  · simp [hr] at h
  · simp only [hr] at h
    refine ⟨k, r, rfl, ?_⟩
    split at h
    · cases h; exact Or.inl rfl
    · split at h
      · cases h; exact Or.inr rfl
      · simp at h

/-- R147: what may come between a RETIRED finding and its hand-off: nothing but a draw, or the removal at the head. -/
theorem State.beforeHandOff_cases (s : State) (p : PosId) :
    s.beforeHandOff p = s ∨ s.beforeHandOff p = s.draw ∨
      ∃ u t, (s.pos p).boundUid = some u ∧ s.removalAtHead p u = some t ∧ s.beforeHandOff p = t.draw := by
  unfold State.beforeHandOff
  rcases hu : (s.pos p).boundUid with _ | u
  · exact Or.inl rfl
  · rcases ht : s.removalAtHead p u with _ | t
    · exact Or.inl (by simp only [ht])
    · simp only [ht]
      split
      · exact Or.inr (Or.inr ⟨u, t, rfl, ht, rfl⟩)
      · exact Or.inr (Or.inl rfl)

theorem State.framePast_beforeHandOff (s : State) (p : PosId) : s.framePast (s.beforeHandOff p) := by
  rcases s.beforeHandOff_cases p with h | h | ⟨u, t, _, ht, h⟩
  · rw [h]; exact State.framePast_of_eq rfl
  · rw [h]; exact State.framePast_of_eq (by simp)
  · obtain ⟨k, r, hr, e⟩ := State.removalAtHead_cases ht
    rw [h]
    refine State.framePast_of_right (State.framePast_takeReady hr) ?_
    rcases e with e | e <;> simp [e]

@[simp] theorem State.memOk_beforeHandOff (s : State) (p : PosId) (hs : s.memOk) : (s.beforeHandOff p).memOk := by
  rcases s.beforeHandOff_cases p with h | h | ⟨u, t, _, ht, h⟩
  · rw [h]; exact hs
  · rw [h]; simpa using hs
  · obtain ⟨k, r, hr, e⟩ := State.removalAtHead_cases ht
    have := State.memOk_takeReady hr hs
    rw [h]
    rcases e with e | e <;> simp [e, this]

@[simp] theorem State.frame_evaluateWear (s : State) (p : PosId) : (s.evaluateWear p).frame = s.frame := by
  unfold State.evaluateWear; (try dsimp only); (repeat' split) <;> first | (simp; done) | rfl
@[simp] theorem State.memOk_evaluateWear (s : State) (p : PosId) (h : s.memOk) : (s.evaluateWear p).memOk := by
  unfold State.evaluateWear; (try dsimp only); (repeat' split) <;> first | (simp (maxDischargeDepth := 20) [h]; done) | exact h
@[simp] theorem State.frame_dropBinding (s : State) (p : PosId) : (s.dropBinding p).frame = s.frame := by
  unfold State.dropBinding; (try dsimp only); (repeat' split) <;> first | (simp; done) | rfl
@[simp] theorem State.memOk_dropBinding (s : State) (p : PosId) (h : s.memOk) : (s.dropBinding p).memOk := by
  unfold State.dropBinding; (try dsimp only); (repeat' split) <;> first | (simp (maxDischargeDepth := 20) [h]; done) | exact h
@[simp] theorem State.frame_endBinding (s : State) (p : PosId) : (s.endBinding p).frame = s.frame := by
  unfold State.endBinding; (try dsimp only); (repeat' split) <;> first | (simp; done) | rfl
@[simp] theorem State.memOk_endBinding (s : State) (p : PosId) (h : s.memOk) : (s.endBinding p).memOk := by
  unfold State.endBinding; (try dsimp only); (repeat' split) <;> first | (simp (maxDischargeDepth := 20) [h]; done) | exact h
@[simp] theorem State.frame_placeFor (s : State) (p : PosId) (c : LineCommand) : (s.placeFor p c).frame = s.frame := by
  unfold State.placeFor; (try dsimp only); (repeat' split) <;> first | (simp; done) | rfl
@[simp] theorem State.memOk_placeFor (s : State) (p : PosId) (c : LineCommand) (h : s.memOk) : (s.placeFor p c).memOk := by
  unfold State.placeFor; (try dsimp only); (repeat' split) <;> first | (simp (maxDischargeDepth := 20) [h]; done) | exact h
@[simp] theorem State.frame_completeInspects (s : State) (p : PosId) (ks : List SlotId) (ran : Bool) (kind : Byte) : (s.completeInspects p ks ran kind).frame = s.frame := by
  exact frame_foldl _ (fun _ _ => by simp) _ _
@[simp] theorem State.memOk_completeInspects (s : State) (p : PosId) (ks : List SlotId) (ran : Bool) (kind : Byte) (h : s.memOk) : (s.completeInspects p ks ran kind).memOk := by
  exact memOk_foldl _ (fun _ _ h => by simp [h]) _ _ h
@[simp] theorem State.frame_modContext (s : State) (p : PosId) (f : CycleContext → CycleContext) : (s.modContext p f).frame = s.frame := by
  unfold State.modContext; (try dsimp only); (repeat' split) <;> first | (simp; done) | rfl
@[simp] theorem State.memOk_modContext (s : State) (p : PosId) (f : CycleContext → CycleContext) (h : s.memOk) : (s.modContext p f).memOk := by
  unfold State.modContext; (try dsimp only); (repeat' split) <;> first | (simp (maxDischargeDepth := 20) [h]; done) | exact h
@[simp] theorem State.frame_endCycle (s : State) (p : PosId) (kind : ResultKind) (f : Word16) (r : Reason) (l : Limits) : (s.endCycle p kind f r l).frame = s.frame := by
  unfold State.endCycle; (try dsimp only); (repeat' split) <;> first | (simp; done) | rfl
@[simp] theorem State.memOk_endCycle (s : State) (p : PosId) (kind : ResultKind) (f : Word16) (r : Reason) (l : Limits) (h : s.memOk) : (s.endCycle p kind f r l).memOk := by
  unfold State.endCycle; (try dsimp only); (repeat' split) <;> first | (simp (maxDischargeDepth := 20) [h]; done) | exact h
@[simp] theorem State.frame_endFindings (s : State) (p : PosId) (f : Word16) (l : Limits) : (s.endFindings p f l).frame = s.frame := by
  unfold State.endFindings; (try dsimp only); (repeat' split) <;> first | (simp; done) | rfl
@[simp] theorem State.memOk_endFindings (s : State) (p : PosId) (f : Word16) (l : Limits) (h : s.memOk) : (s.endFindings p f l).memOk := by
  unfold State.endFindings; (try dsimp only); (repeat' split) <;> first | (simp (maxDischargeDepth := 20) [h]; done) | exact h
@[simp] theorem State.frame_endInconclusive (s : State) (p : PosId) (r : Reason) : (s.endInconclusive p r).frame = s.frame := by
  unfold State.endInconclusive; (try dsimp only); (repeat' split) <;> first | (simp; done) | rfl
@[simp] theorem State.memOk_endInconclusive (s : State) (p : PosId) (r : Reason) (h : s.memOk) : (s.endInconclusive p r).memOk := by
  unfold State.endInconclusive; (try dsimp only); (repeat' split) <;> first | (simp (maxDischargeDepth := 20) [h]; done) | exact h
@[simp] theorem State.frame_enterScreen (s : State) (p : PosId) : (s.enterScreen p).frame = s.frame := by
  unfold State.enterScreen; (try dsimp only); (repeat' split) <;> first | (simp; done) | rfl
@[simp] theorem State.memOk_enterScreen (s : State) (p : PosId) (h : s.memOk) : (s.enterScreen p).memOk := by
  unfold State.enterScreen; (try dsimp only); (repeat' split) <;> first | (simp (maxDischargeDepth := 20) [h]; done) | exact h
@[simp] theorem State.frame_enterSignature (s : State) (p : PosId) : (s.enterSignature p).frame = s.frame := by
  unfold State.enterSignature; (try dsimp only); (repeat' split) <;> first | (simp; done) | rfl
@[simp] theorem State.memOk_enterSignature (s : State) (p : PosId) (h : s.memOk) : (s.enterSignature p).memOk := by
  unfold State.enterSignature; (try dsimp only); (repeat' split) <;> first | (simp (maxDischargeDepth := 20) [h]; done) | exact h
@[simp] theorem State.frame_signatureOutcome (s : State) (p : PosId) (o : SignatureOutcome) : (s.signatureOutcome p o).frame = s.frame := by
  unfold State.signatureOutcome; (try dsimp only); (repeat' split) <;> first | (simp; done) | rfl
@[simp] theorem State.memOk_signatureOutcome (s : State) (p : PosId) (o : SignatureOutcome) (h : s.memOk) : (s.signatureOutcome p o).memOk := by
  unfold State.signatureOutcome; (try dsimp only); (repeat' split) <;> first | (simp (maxDischargeDepth := 20) [h]; done) | exact h
@[simp] theorem State.frame_challengeFailed (s : State) (p : PosId) (e : LineError) : (s.challengeFailed p e).frame = s.frame := by
  unfold State.challengeFailed; (try dsimp only); (repeat' split) <;> first | (simp; done) | rfl
@[simp] theorem State.memOk_challengeFailed (s : State) (p : PosId) (e : LineError) (h : s.memOk) : (s.challengeFailed p e).memOk := by
  unfold State.challengeFailed; (try dsimp only); (repeat' split) <;> first | (simp (maxDischargeDepth := 20) [h]; done) | exact h
@[simp] theorem State.frame_enterChallenge (s : State) (p : PosId) (k : ClassRecord) : (s.enterChallenge p k).frame = s.frame := by
  unfold State.enterChallenge; (try dsimp only); (repeat' split) <;> first | (simp; done) | rfl
@[simp] theorem State.memOk_enterChallenge (s : State) (p : PosId) (k : ClassRecord) (h : s.memOk) : (s.enterChallenge p k).memOk := by
  unfold State.enterChallenge; (try dsimp only); (repeat' split) <;> first | (simp (maxDischargeDepth := 20) [h]; done) | exact h
@[simp] theorem State.frame_challengeReply (s : State) (p : PosId) (st : Byte) (d : List Byte) (n : Nat) : (s.challengeReply p st d n).frame = s.frame := by
  unfold State.challengeReply; (try dsimp only); (repeat' split) <;> first | (simp; done) | rfl
@[simp] theorem State.memOk_challengeReply (s : State) (p : PosId) (st : Byte) (d : List Byte) (n : Nat) (h : s.memOk) : (s.challengeReply p st d n).memOk := by
  unfold State.challengeReply; (try dsimp only); (repeat' split) <;> first | (simp (maxDischargeDepth := 20) [h]; done) | exact h
@[simp] theorem State.frame_formatFailed (s : State) (p : PosId) (f : Word16) : (s.formatFailed p f).frame = s.frame := by
  unfold State.formatFailed; (try dsimp only); (repeat' split) <;> first | (simp; done) | rfl
@[simp] theorem State.memOk_formatFailed (s : State) (p : PosId) (f : Word16) (h : s.memOk) : (s.formatFailed p f).memOk := by
  unfold State.formatFailed; (try dsimp only); (repeat' split) <;> first | (simp (maxDischargeDepth := 20) [h]; done) | exact h
@[simp] theorem State.frame_resolveCommit (s : State) (p : PosId) (u : Word64) (c : Word32) : ((s.resolveCommit p u c).1).frame = s.frame := by
  unfold State.resolveCommit; dsimp only; (repeat' split) <;> first | (simp; done) | rfl
@[simp] theorem State.memOk_resolveCommit (s : State) (p : PosId) (u : Word64) (c : Word32) (h : s.memOk) : ((s.resolveCommit p u c).1).memOk := by
  unfold State.resolveCommit; dsimp only; (repeat' split) <;> simp (maxDischargeDepth := 20) [h]
@[simp] theorem State.frame_settleIdentity (s : State) (p : PosId) : (s.settleIdentity p).frame = s.frame := by
  unfold State.settleIdentity; (try dsimp only); (repeat' split) <;> first | (simp; done) | rfl
@[simp] theorem State.memOk_settleIdentity (s : State) (p : PosId) (h : s.memOk) : (s.settleIdentity p).memOk := by
  unfold State.settleIdentity; (try dsimp only); (repeat' split) <;> first | (simp (maxDischargeDepth := 20) [h]; done) | exact h
theorem State.framePast_decideChecks (s : State) (p : PosId) (f : Word16) (k : Option ClassRecord) :
    s.framePast (s.decideChecks p f k) := by
  unfold State.decideChecks
  split
  · split
    · exact State.framePast_of_right (s.framePast_beforeHandOff p) (by simp)
    · exact State.framePast_of_eq (by simp)
  · split <;> exact State.framePast_of_eq (by simp)
@[simp] theorem State.memOk_decideChecks (s : State) (p : PosId) (f : Word16) (k : Option ClassRecord) (h : s.memOk) : (s.decideChecks p f k).memOk := by
  unfold State.decideChecks; (repeat' split) <;> simp [h]
theorem State.framePast_runChecks (s : State) (p : PosId) : s.framePast (s.runChecks p) := by
  unfold State.runChecks
  dsimp only
  refine State.framePast_of_left ?_ (State.framePast_decideChecks _ _ _ _)
  rw [State.frame_modContext]
  split <;> simp
@[simp] theorem State.memOk_runChecks (s : State) (p : PosId) (h : s.memOk) : (s.runChecks p).memOk := by
  unfold State.runChecks; (try dsimp only); (repeat' split) <;> first | (simp (maxDischargeDepth := 20) [h]; done) | exact h
theorem State.framePast_checks (s : State) (p : PosId) : s.framePast (s.checks p) := by
  unfold State.checks
  split
  · exact State.framePast_of_left (by simp) (State.framePast_runChecks _ p)
  · exact State.framePast_of_eq (by simp)
@[simp] theorem State.memOk_checks (s : State) (p : PosId) (h : s.memOk) : (s.checks p).memOk := by
  unfold State.checks; (try dsimp only); (repeat' split) <;> first | (simp (maxDischargeDepth := 20) [h]; done) | exact h
@[simp] theorem State.frame_enterPresence (s : State) (p : PosId) : (s.enterPresence p).frame = s.frame := by
  unfold State.enterPresence; (try dsimp only); (repeat' split) <;> first | (simp; done) | rfl
@[simp] theorem State.memOk_enterPresence (s : State) (p : PosId) (h : s.memOk) : (s.enterPresence p).memOk := by
  unfold State.enterPresence; (try dsimp only); (repeat' split) <;> first | (simp (maxDischargeDepth := 20) [h]; done) | exact h
@[simp] theorem State.frame_presenceOutcome (s : State) (p : PosId) (r : PresenceOutcome) : (s.presenceOutcome p r).frame = s.frame := by
  unfold State.presenceOutcome; (try dsimp only); (repeat' split) <;> first | (simp; done) | rfl
@[simp] theorem State.memOk_presenceOutcome (s : State) (p : PosId) (r : PresenceOutcome) (h : s.memOk) : (s.presenceOutcome p r).memOk := by
  unfold State.presenceOutcome; (try dsimp only); (repeat' split) <;> first | (simp (maxDischargeDepth := 20) [h]; done) | exact h
theorem State.framePast_identifyReply (s : State) (p : PosId) (st : Byte) (d : List Byte) (ratio : Word16) (n : Nat) :
    s.framePast (s.identifyReply p st d ratio n) :=
  State.framePast_of_left (by simp) (State.framePast_checks _ p)
@[simp] theorem State.memOk_identifyReply (s : State) (p : PosId) (st : Byte) (d : List Byte) (ratio : Word16) (n : Nat) (h : s.memOk) : (s.identifyReply p st d ratio n).memOk := by
  unfold State.identifyReply; (try dsimp only); (repeat' split) <;> first | (simp (maxDischargeDepth := 20) [h]; done) | exact h
@[simp] theorem State.frame_identifyFailed (s : State) (p : PosId) (e : LineError) (n : Nat) : (s.identifyFailed p e n).frame = s.frame := by
  unfold State.identifyFailed; (try dsimp only); (repeat' split) <;> first | (simp; done) | rfl
@[simp] theorem State.memOk_identifyFailed (s : State) (p : PosId) (e : LineError) (n : Nat) (h : s.memOk) : (s.identifyFailed p e n).memOk := by
  unfold State.identifyFailed; (try dsimp only); (repeat' split) <;> first | (simp (maxDischargeDepth := 20) [h]; done) | exact h
@[simp] theorem State.frame_startCycle (s : State) (p : PosId) : (s.startCycle p).frame = s.frame := by
  unfold State.startCycle; (try dsimp only); (repeat' split) <;> first | (simp; done) | rfl
@[simp] theorem State.memOk_startCycle (s : State) (p : PosId) (h : s.memOk) : (s.startCycle p).memOk := by
  unfold State.startCycle; (try dsimp only); (repeat' split) <;> first | (simp (maxDischargeDepth := 20) [h]; done) | exact h
@[simp] theorem State.frame_commitWear (s : State) (p : PosId) : (s.commitWear p).frame = s.frame := by
  unfold State.commitWear; (try dsimp only); (repeat' split) <;> first | (simp; done) | rfl
@[simp] theorem State.memOk_commitWear (s : State) (p : PosId) (h : s.memOk) : (s.commitWear p).memOk := by
  unfold State.commitWear; (try dsimp only); (repeat' split) <;> first | (simp (maxDischargeDepth := 20) [h]; done) | exact h
@[simp] theorem State.frame_endCommit (s : State) (p : PosId) (o : CommitOutcome) (a : Word16) (c : Word32) : (s.endCommit p o a c).frame = s.frame := by
  unfold State.endCommit; dsimp only; rw [frame_foldl _ (fun _ _ => by simp)]; simp
@[simp] theorem State.memOk_endCommit (s : State) (p : PosId) (o : CommitOutcome) (a : Word16) (c : Word32) (h : s.memOk) : (s.endCommit p o a c).memOk := by
  exact memOk_foldl _ (fun _ _ h => by simp [h]) _ _ (by simp [h])
@[simp] theorem State.frame_handMismatch (s : State) (p : PosId) : (s.handMismatch p).frame = s.frame := by
  unfold State.handMismatch; (try dsimp only); (repeat' split) <;> first | (simp; done) | rfl
@[simp] theorem State.memOk_handMismatch (s : State) (p : PosId) (h : s.memOk) : (s.handMismatch p).memOk := by
  unfold State.handMismatch; (try dsimp only); (repeat' split) <;> first | (simp (maxDischargeDepth := 20) [h]; done) | exact h
@[simp] theorem State.frame_raiseBound (s : State) (p : PosId) (v : Word32) : (s.raiseBound p v).frame = s.frame := by
  unfold State.raiseBound; (try dsimp only); (repeat' split) <;> first | (simp; done) | rfl
@[simp] theorem State.memOk_raiseBound (s : State) (p : PosId) (v : Word32) (h : s.memOk) : (s.raiseBound p v).memOk := by
  unfold State.raiseBound; (try dsimp only); (repeat' split) <;> first | (simp (maxDischargeDepth := 20) [h]; done) | exact h
@[simp] theorem State.frame_judgeCounter (s : State) (p : PosId) (v : Word32) (b : Bool) : (s.judgeCounter p v b).frame = s.frame := by
  unfold State.judgeCounter; (try dsimp only); (repeat' split) <;> first | (simp; done) | rfl
@[simp] theorem State.memOk_judgeCounter (s : State) (p : PosId) (v : Word32) (b : Bool) (h : s.memOk) : (s.judgeCounter p v b).memOk := by
  unfold State.judgeCounter; (try dsimp only); (repeat' split) <;> first | (simp (maxDischargeDepth := 20) [h]; done) | exact h
@[simp] theorem State.frame_leaveUnconfirmed (s : State) (p : PosId) : (s.leaveUnconfirmed p).frame = s.frame := by
  unfold State.leaveUnconfirmed; (try dsimp only); (repeat' split) <;> first | (simp; done) | rfl
@[simp] theorem State.memOk_leaveUnconfirmed (s : State) (p : PosId) (h : s.memOk) : (s.leaveUnconfirmed p).memOk := by
  unfold State.leaveUnconfirmed; (try dsimp only); (repeat' split) <;> first | (simp (maxDischargeDepth := 20) [h]; done) | exact h
@[simp] theorem State.frame_addRetries (s : State) (p : PosId) (n : Nat) : (s.addRetries p n).frame = s.frame := by
  unfold State.addRetries; (try dsimp only); (repeat' split) <;> first | (simp; done) | rfl
@[simp] theorem State.memOk_addRetries (s : State) (p : PosId) (n : Nat) (h : s.memOk) : (s.addRetries p n).memOk := by
  unfold State.addRetries; (try dsimp only); (repeat' split) <;> first | (simp (maxDischargeDepth := 20) [h]; done) | exact h
@[simp] theorem State.frame_confirmFailed (s : State) (p : PosId) (e : LineError) (n : Nat) : (s.confirmFailed p e n).frame = s.frame := by
  unfold State.confirmFailed; (try dsimp only); (repeat' split) <;> first | (simp; done) | rfl
@[simp] theorem State.memOk_confirmFailed (s : State) (p : PosId) (e : LineError) (n : Nat) (h : s.memOk) : (s.confirmFailed p e n).memOk := by
  unfold State.confirmFailed; (try dsimp only); (repeat' split) <;> first | (simp (maxDischargeDepth := 20) [h]; done) | exact h
@[simp] theorem State.frame_addUsageFailed (s : State) (p : PosId) (e : LineError) (n : Nat) : (s.addUsageFailed p e n).frame = s.frame := by
  unfold State.addUsageFailed; (try dsimp only); (repeat' split) <;> first | (simp; done) | rfl
@[simp] theorem State.memOk_addUsageFailed (s : State) (p : PosId) (e : LineError) (n : Nat) (h : s.memOk) : (s.addUsageFailed p e n).memOk := by
  unfold State.addUsageFailed; (try dsimp only); (repeat' split) <;> first | (simp (maxDischargeDepth := 20) [h]; done) | exact h
@[simp] theorem State.frame_addUsageReply (s : State) (p : PosId) (st : Byte) (d : List Byte) (n : Nat) : (s.addUsageReply p st d n).frame = s.frame := by
  unfold State.addUsageReply; (try dsimp only); (repeat' split) <;> first | (simp; done) | rfl
@[simp] theorem State.memOk_addUsageReply (s : State) (p : PosId) (st : Byte) (d : List Byte) (n : Nat) (h : s.memOk) : (s.addUsageReply p st d n).memOk := by
  unfold State.addUsageReply; (try dsimp only); (repeat' split) <;> first | (simp (maxDischargeDepth := 20) [h]; done) | exact h
@[simp] theorem State.frame_confirmReply (s : State) (p : PosId) (st : Byte) (d : List Byte) (n : Nat) : (s.confirmReply p st d n).frame = s.frame := by
  unfold State.confirmReply; (try dsimp only); (repeat' split) <;> first | (simp; done) | rfl
@[simp] theorem State.memOk_confirmReply (s : State) (p : PosId) (st : Byte) (d : List Byte) (n : Nat) (h : s.memOk) : (s.confirmReply p st d n).memOk := by
  unfold State.confirmReply; (try dsimp only); (repeat' split) <;> first | (simp (maxDischargeDepth := 20) [h]; done) | exact h
@[simp] theorem State.frame_startCommit (s : State) (p : PosId) : (s.startCommit p).frame = s.frame := by
  unfold State.startCommit; (try dsimp only); (repeat' split) <;> first | (simp; done) | rfl
@[simp] theorem State.memOk_startCommit (s : State) (p : PosId) (h : s.memOk) : (s.startCommit p).memOk := by
  unfold State.startCommit; (try dsimp only); (repeat' split) <;> first | (simp (maxDischargeDepth := 20) [h]; done) | exact h
@[simp] theorem State.frame_commitNothing (s : State) (p : PosId) : (s.commitNothing p).frame = s.frame := by
  unfold State.commitNothing; dsimp only; rw [frame_foldl _ (fun _ _ => by simp)]; simp
@[simp] theorem State.memOk_commitNothing (s : State) (p : PosId) (h : s.memOk) : (s.commitNothing p).memOk := by
  exact memOk_foldl _ (fun _ _ h => by simp [h]) _ _ (by simp [h])
@[simp] theorem State.frame_commitStep (s : State) (p : PosId) : (s.commitStep p).frame = s.frame := by
  unfold State.commitStep; (try dsimp only); (repeat' split) <;> first | (simp; done) | rfl
@[simp] theorem State.memOk_commitStep (s : State) (p : PosId) (h : s.memOk) : (s.commitStep p).memOk := by
  unfold State.commitStep; (try dsimp only); (repeat' split) <;> first | (simp (maxDischargeDepth := 20) [h]; done) | exact h
@[simp] theorem State.frame_disablePosition (s : State) (p : PosId) (e : Word16) : (s.disablePosition p e).frame = s.frame := by
  unfold State.disablePosition; (try dsimp only); (repeat' split) <;> first | (simp; done) | rfl
@[simp] theorem State.memOk_disablePosition (s : State) (p : PosId) (e : Word16) (h : s.memOk) : (s.disablePosition p e).memOk := by
  unfold State.disablePosition; (try dsimp only); (repeat' split) <;> first | (simp (maxDischargeDepth := 20) [h]; done) | exact h
@[simp] theorem State.frame_reconfigurePosition (s : State) (p : PosId) (c : PosConfig) : (s.reconfigurePosition p c).frame = s.frame := by
  unfold State.reconfigurePosition; (try dsimp only); (repeat' split) <;> first | (simp; done) | rfl
@[simp] theorem State.memOk_reconfigurePosition (s : State) (p : PosId) (c : PosConfig) (h : s.memOk) : (s.reconfigurePosition p c).memOk := by
  unfold State.reconfigurePosition; (try dsimp only); (repeat' split) <;> first | (simp (maxDischargeDepth := 20) [h]; done) | exact h
@[simp] theorem State.frame_examineAndApply (s : State) (p : PosId) : (s.examineAndApply p).frame = s.frame := by
  unfold State.examineAndApply; (try dsimp only); (repeat' split) <;> first | (simp; done) | rfl
@[simp] theorem State.memOk_examineAndApply (s : State) (p : PosId) (h : s.memOk) : (s.examineAndApply p).memOk := by
  unfold State.examineAndApply; (try dsimp only); (repeat' split) <;> first | (simp (maxDischargeDepth := 20) [h]; done) | exact h
@[simp] theorem State.frame_choose (s : State) (p : PosId) : (s.choose p).frame = s.frame := by
  unfold State.choose; (try dsimp only); (repeat' split) <;> first | (simp; done) | rfl
@[simp] theorem State.memOk_choose (s : State) (p : PosId) (h : s.memOk) : (s.choose p).memOk := by
  unfold State.choose; (try dsimp only); (repeat' split) <;> first | (simp (maxDischargeDepth := 20) [h]; done) | exact h
theorem State.framePast_positionLine (s : State) (p : PosId) (r : LineResult) : s.framePast (s.positionLine p r) := by
  unfold State.positionLine
  (repeat' split) <;> first
    | exact State.framePast_identifyReply ..
    | exact State.framePast_of_eq (by simp)
    | exact State.framePast_of_eq rfl
/-- The failure of a transaction takes nothing off the watch queue. -/
@[simp] theorem State.frame_positionLine_failure (s : State) (p : PosId) (e : LineError) (n : Nat) :
    (s.positionLine p (.failure e n)).frame = s.frame := by
  unfold State.positionLine
  (repeat' split) <;> first | (simp; done) | rfl | (rename_i h; cases h; done) | (rename_i h _; cases h; done) | simp_all
@[simp] theorem State.memOk_positionLine (s : State) (p : PosId) (r : LineResult) (h : s.memOk) : (s.positionLine p r).memOk := by
  unfold State.positionLine; (try dsimp only); (repeat' split) <;> first | (simp (maxDischargeDepth := 20) [h]; done) | exact h
@[simp] theorem State.frame_taskLine (s : State) (k : SlotId) (c : LineCommand) (r : LineResult) : (s.taskLine k c r).frame = s.frame := by
  unfold State.taskLine; (try dsimp only); (repeat' split) <;> first | (simp; done) | rfl
@[simp] theorem State.memOk_taskLine (s : State) (k : SlotId) (c : LineCommand) (r : LineResult) (h : s.memOk) : (s.taskLine k c r).memOk := by
  unfold State.taskLine; (try dsimp only); (repeat' split) <;> first | (simp (maxDischargeDepth := 20) [h]; done) | exact h
theorem State.framePast_handLine (s : State) (r : LineRequest) (o : LineResult) : s.framePast (s.handLine r o) := by
  unfold State.handLine
  split
  · exact State.framePast_of_right (s.framePast_positionLine _ o) (State.frame_choose _ _)
  · exact State.framePast_of_eq (by simp)
@[simp] theorem State.frame_handLine_failure (s : State) (r : LineRequest) (e : LineError) (n : Nat) :
    (s.handLine r (.failure e n)).frame = s.frame := by
  unfold State.handLine; split <;> simp
@[simp] theorem State.memOk_handLine (s : State) (r : LineRequest) (o : LineResult) (h : s.memOk) : (s.handLine r o).memOk := by
  unfold State.handLine; (try dsimp only); (repeat' split) <;> first | (simp (maxDischargeDepth := 20) [h]; done) | exact h
/-- The end of a transaction moves nothing of the frame, but for an entry that has left the watch queue (R147). -/
theorem State.framePast_conclude (s : State) (t : Transaction) (o : LineResult) : s.framePast (s.conclude t o) := by
  unfold State.conclude
  (repeat' split) <;> first
    | exact State.framePast_handLine ..
    | exact State.framePast_of_eq (by simp)
    | exact State.framePast_of_eq rfl
@[simp] theorem State.frame_conclude_failure (s : State) (t : Transaction) (e : LineError) (n : Nat) :
    (s.conclude t (.failure e n)).frame = s.frame := by
  unfold State.conclude; (repeat' split) <;> first | (simp; done) | rfl
@[simp] theorem State.memOk_conclude (s : State) (t : Transaction) (o : LineResult) (h : s.memOk) : (s.conclude t o).memOk := by
  unfold State.conclude; (try dsimp only); (repeat' split) <;> first | (simp (maxDischargeDepth := 20) [h]; done) | exact h
@[simp] theorem State.frame_chooseAmong (s : State) (ps : List PosId) : (s.chooseAmong ps).frame = s.frame := by
  unfold State.chooseAmong; simp [frame_foldl]
@[simp] theorem State.memOk_chooseAmong (s : State) (ps : List PosId) (h : s.memOk) : (s.chooseAmong ps).memOk := by
  unfold State.chooseAmong; rw [State.memOk_draw]; exact memOk_foldl _ (fun _ _ h => by simp [h]) _ _ h
@[simp] theorem State.frame_failAll (s : State) (t : Option Transaction) (q : List LineRequest) (e : LineError) : (s.failAll t q e).frame = s.frame := by
  unfold State.failAll; dsimp only; rw [frame_foldl _ (fun _ _ => by simp)]; split <;> simp
@[simp] theorem State.memOk_failAll (s : State) (t : Option Transaction) (q : List LineRequest) (e : LineError) (h : s.memOk) : (s.failAll t q e).memOk := by
  unfold State.failAll; refine memOk_foldl _ (fun _ _ h => by simp [h]) _ _ ?_; split <;> simp [h]
@[simp] theorem State.frame_resetLine (s : State) (k : SlotId) (l : LineId) : (s.resetLine k l).frame = s.frame := by
  unfold State.resetLine; (try dsimp only); (repeat' split) <;> first | (simp; done) | rfl
@[simp] theorem State.memOk_resetLine (s : State) (k : SlotId) (l : LineId) (h : s.memOk) : (s.resetLine k l).memOk := by
  unfold State.resetLine; (try dsimp only); (repeat' split) <;> first | (simp (maxDischargeDepth := 20) [h]; done) | exact h
@[simp] theorem State.frame_configEdition (s : State) (p : PosId) : (s.configEdition p).frame = s.frame := by
  unfold State.configEdition; (try dsimp only); (repeat' split) <;> first | (simp; done) | rfl
@[simp] theorem State.memOk_configEdition (s : State) (p : PosId) (h : s.memOk) : (s.configEdition p).memOk := by
  unfold State.configEdition; (try dsimp only); (repeat' split) <;> first | (simp (maxDischargeDepth := 20) [h]; done) | exact h
@[simp] theorem State.frame_cancelCalibrate (s : State) (k : SlotId) : (s.cancelCalibrate k).frame = s.frame := by
  unfold State.cancelCalibrate; (try dsimp only); (repeat' split) <;> first | (simp; done) | rfl
@[simp] theorem State.memOk_cancelCalibrate (s : State) (k : SlotId) (h : s.memOk) : (s.cancelCalibrate k).memOk := by
  unfold State.cancelCalibrate; (try dsimp only); (repeat' split) <;> first | (simp (maxDischargeDepth := 20) [h]; done) | exact h
@[simp] theorem State.frame_cancelInspect (s : State) (k : SlotId) : (s.cancelInspect k).frame = s.frame := by
  unfold State.cancelInspect; (try dsimp only); (repeat' split) <;> first | (simp; done) | rfl
@[simp] theorem State.memOk_cancelInspect (s : State) (k : SlotId) (h : s.memOk) : (s.cancelInspect k).memOk := by
  unfold State.cancelInspect; (try dsimp only); (repeat' split) <;> first | (simp (maxDischargeDepth := 20) [h]; done) | exact h
@[simp] theorem State.frame_cancelCommit (s : State) (k : SlotId) : (s.cancelCommit k).frame = s.frame := by
  unfold State.cancelCommit; (try dsimp only); (repeat' split) <;> first | (simp; done) | rfl
@[simp] theorem State.memOk_cancelCommit (s : State) (k : SlotId) (h : s.memOk) : (s.cancelCommit k).memOk := by
  unfold State.cancelCommit; (try dsimp only); (repeat' split) <;> first | (simp (maxDischargeDepth := 20) [h]; done) | exact h
@[simp] theorem State.frame_cancelQueued (s : State) (k : SlotId) : (s.cancelQueued k).frame = s.frame := by
  unfold State.cancelQueued; (try dsimp only); (repeat' split) <;> first | (simp; done) | rfl
@[simp] theorem State.memOk_cancelQueued (s : State) (k : SlotId) (h : s.memOk) : (s.cancelQueued k).memOk := by
  unfold State.cancelQueued; (try dsimp only); (repeat' split) <;> first | (simp (maxDischargeDepth := 20) [h]; done) | exact h
@[simp] theorem State.frame_cancelRead (s : State) (k : SlotId) : (s.cancelRead k).frame = s.frame := by
  unfold State.cancelRead; (try dsimp only); (repeat' split) <;> first | (simp; done) | rfl
@[simp] theorem State.memOk_cancelRead (s : State) (k : SlotId) (h : s.memOk) : (s.cancelRead k).memOk := by
  unfold State.cancelRead; (try dsimp only); (repeat' split) <;> first | (simp (maxDischargeDepth := 20) [h]; done) | exact h
@[simp] theorem State.frame_cancelWrite (s : State) (k : SlotId) : (s.cancelWrite k).frame = s.frame := by
  unfold State.cancelWrite; (try dsimp only); (repeat' split) <;> first | (simp; done) | rfl
@[simp] theorem State.memOk_cancelWrite (s : State) (k : SlotId) (h : s.memOk) : (s.cancelWrite k).memOk := by
  unfold State.cancelWrite; (try dsimp only); (repeat' split) <;> first | (simp (maxDischargeDepth := 20) [h]; done) | exact h
@[simp] theorem State.frame_attachInspect (s : State) (k : SlotId) (p : PosId) : (s.attachInspect k p).frame = s.frame := by
  unfold State.attachInspect; (try dsimp only); (repeat' split) <;> first | (simp; done) | rfl
@[simp] theorem State.memOk_attachInspect (s : State) (k : SlotId) (p : PosId) (h : s.memOk) : (s.attachInspect k p).memOk := by
  unfold State.attachInspect; (try dsimp only); (repeat' split) <;> first | (simp (maxDischargeDepth := 20) [h]; done) | exact h
@[simp] theorem State.frame_inspectTask (s : State) (k : SlotId) : (State.inspectTask k s).frame = s.frame := by
  unfold State.inspectTask; (try dsimp only); (repeat' split) <;> first | (simp; done) | rfl
@[simp] theorem State.memOk_inspectTask (s : State) (k : SlotId) (h : s.memOk) : (State.inspectTask k s).memOk := by
  unfold State.inspectTask; (try dsimp only); (repeat' split) <;> first | (simp (maxDischargeDepth := 20) [h]; done) | exact h
@[simp] theorem State.frame_placeTask (s : State) (k : SlotId) (l : LineId) (a : Byte) (c : LineCommand) : (s.placeTask k l a c).frame = s.frame := by
  unfold State.placeTask; (try dsimp only); (repeat' split) <;> first | (simp; done) | rfl
@[simp] theorem State.memOk_placeTask (s : State) (k : SlotId) (l : LineId) (a : Byte) (c : LineCommand) (h : s.memOk) : (s.placeTask k l a c).memOk := by
  unfold State.placeTask; (try dsimp only); (repeat' split) <;> first | (simp (maxDischargeDepth := 20) [h]; done) | exact h
@[simp] theorem State.frame_tagReadTask (s : State) (k : SlotId) : (State.tagReadTask k s).frame = s.frame := by
  unfold State.tagReadTask; (try dsimp only); (repeat' split) <;> first | (simp; done) | rfl
@[simp] theorem State.memOk_tagReadTask (s : State) (k : SlotId) (h : s.memOk) : (State.tagReadTask k s).memOk := by
  unfold State.tagReadTask; (try dsimp only); (repeat' split) <;> first | (simp (maxDischargeDepth := 20) [h]; done) | exact h
@[simp] theorem State.frame_tagWriteTask (s : State) (k : SlotId) : (State.tagWriteTask k s).frame = s.frame := by
  unfold State.tagWriteTask; (try dsimp only); (repeat' split) <;> first | (simp; done) | rfl
@[simp] theorem State.memOk_tagWriteTask (s : State) (k : SlotId) (h : s.memOk) : (State.tagWriteTask k s).memOk := by
  unfold State.tagWriteTask; (try dsimp only); (repeat' split) <;> first | (simp (maxDischargeDepth := 20) [h]; done) | exact h
@[simp] theorem State.frame_lineResetTask (s : State) (k : SlotId) : (State.lineResetTask k s).frame = s.frame := by
  unfold State.lineResetTask; (try dsimp only); (repeat' split) <;> first | (simp; done) | rfl
@[simp] theorem State.memOk_lineResetTask (s : State) (k : SlotId) (h : s.memOk) : (State.lineResetTask k s).memOk := by
  unfold State.lineResetTask; (try dsimp only); (repeat' split) <;> first | (simp (maxDischargeDepth := 20) [h]; done) | exact h
@[simp] theorem State.frame_calibrateTask (s : State) (k : SlotId) : (State.calibrateTask k s).frame = s.frame := by
  unfold State.calibrateTask; (try dsimp only); (repeat' split) <;> first | (simp; done) | rfl
@[simp] theorem State.memOk_calibrateTask (s : State) (k : SlotId) (h : s.memOk) : (State.calibrateTask k s).memOk := by
  unfold State.calibrateTask; (try dsimp only); (repeat' split) <;> first | (simp (maxDischargeDepth := 20) [h]; done) | exact h
@[simp] theorem State.frame_usageCommitTask (s : State) (k : SlotId) : (State.usageCommitTask k s).frame = s.frame := by
  unfold State.usageCommitTask; (try dsimp only); (repeat' split) <;> first | (simp; done) | rfl
@[simp] theorem State.memOk_usageCommitTask (s : State) (k : SlotId) (h : s.memOk) : (State.usageCommitTask k s).memOk := by
  unfold State.usageCommitTask; (try dsimp only); (repeat' split) <;> first | (simp (maxDischargeDepth := 20) [h]; done) | exact h
@[simp] theorem State.frame_retiredRemoveTask (s : State) (k : SlotId) : (State.retiredRemoveTask k s).frame = s.frame := by
  unfold State.retiredRemoveTask; (try dsimp only); (repeat' split) <;> first | (simp; done) | rfl
@[simp] theorem State.memOk_retiredRemoveTask (s : State) (k : SlotId) (h : s.memOk) : (State.retiredRemoveTask k s).memOk := by
  unfold State.retiredRemoveTask; (try dsimp only); (repeat' split) <;> first | (simp (maxDischargeDepth := 20) [h]; done) | exact h
@[simp] theorem State.frame_releaseTask (s : State) (k : SlotId) : (State.releaseTask k s).frame = s.frame := by
  unfold State.releaseTask; (try dsimp only); (repeat' split) <;> first | (simp; done) | rfl
@[simp] theorem State.memOk_releaseTask (s : State) (k : SlotId) (h : s.memOk) : (State.releaseTask k s).memOk := by
  unfold State.releaseTask; (try dsimp only); (repeat' split) <;> first | (simp (maxDischargeDepth := 20) [h]; done) | exact h
@[simp] theorem State.frame_discardMeasurement (s : State) (f : MeasFlight) : (s.discardMeasurement f).frame = s.frame := by
  unfold State.discardMeasurement; (try dsimp only); (repeat' split) <;> first | (simp; done) | rfl
@[simp] theorem State.memOk_discardMeasurement (s : State) (f : MeasFlight) (h : s.memOk) : (s.discardMeasurement f).memOk := by
  unfold State.discardMeasurement; (try dsimp only); (repeat' split) <;> first | (simp (maxDischargeDepth := 20) [h]; done) | exact h
@[simp] theorem State.frame_timerExpiry (s : State) (p : PosId) : (s.timerExpiry p).frame = s.frame := by
  unfold State.timerExpiry; (try dsimp only); (repeat' split) <;> first | (simp; done) | rfl
@[simp] theorem State.memOk_timerExpiry (s : State) (p : PosId) (h : s.memOk) : (s.timerExpiry p).memOk := by
  unfold State.timerExpiry; (try dsimp only); (repeat' split) <;> first | (simp (maxDischargeDepth := 20) [h]; done) | exact h
@[simp] theorem State.frame_enterQuiet (s : State) (l : LineId) : (s.enterQuiet l).frame = s.frame := by
  unfold State.enterQuiet; (try dsimp only); (repeat' split) <;> first | (simp; done) | rfl
@[simp] theorem State.memOk_enterQuiet (s : State) (l : LineId) (h : s.memOk) : (s.enterQuiet l).memOk := by
  unfold State.enterQuiet; (try dsimp only); (repeat' split) <;> first | (simp (maxDischargeDepth := 20) [h]; done) | exact h
@[simp] theorem State.frame_pulseAt (s : State) (p : PosId) : (s.pulseAt p).frame = s.frame := by
  unfold State.pulseAt; (try dsimp only); (repeat' split) <;> first | (simp; done) | rfl
@[simp] theorem State.memOk_pulseAt (s : State) (p : PosId) (h : s.memOk) : (s.pulseAt p).memOk := by
  unfold State.pulseAt; (try dsimp only); (repeat' split) <;> first | (simp (maxDischargeDepth := 20) [h]; done) | exact h

end Sys2Proof.Machine
end

