-- ==== Sys2Proof/Laws/Permits.lean ====
section
/-! SUPPORT. The permit unit and the tail of a step: after an evaluation the permits follow their inputs, whatever the
state was before. -/
namespace Sys2Proof.Machine

/-! ### Fields read off a frame -/

theorem Frame.watch_eq {s t : State} (h : t.frame = s.frame) : t.watch = s.watch := congrArg Frame.watch h
theorem Frame.power_eq {s t : State} (h : t.frame = s.frame) : t.power = s.power := congrArg Frame.power h
theorem Frame.device_eq {s t : State} (h : t.frame = s.frame) : t.device = s.device := congrArg Frame.device h
theorem Frame.pending_eq {s t : State} (h : t.frame = s.frame) : t.pending = s.pending := congrArg Frame.pending h
theorem Frame.keys_eq {s t : State} (h : t.frame = s.frame) : t.keys = s.keys := congrArg Frame.keys h
theorem Frame.settings_eq {s t : State} (h : t.frame = s.frame) : t.settings = s.settings := congrArg Frame.settings h
theorem Frame.cal_eq {s t : State} (h : t.frame = s.frame) : t.meas.cal = s.meas.cal := congrArg Frame.cal h
theorem Frame.inhibitN_eq {s t : State} (h : t.frame = s.frame) : t.inhibitN = s.inhibitN := congrArg Frame.inhibitN h
theorem Frame.holds_eq {s t : State} (h : t.frame = s.frame) : t.permits.holds = s.permits.holds := congrArg Frame.holds h
theorem Frame.groupEnable_eq {s t : State} (h : t.frame = s.frame) : t.permits.groupEnable = s.permits.groupEnable :=
  congrArg Frame.groupEnable h

theorem Frame.host_eq {s t : State} (h : t.frame = s.frame) {a : Nat} (ha : hostByte a = true) :
    t.mem.read a = s.mem.read a := read_of_hostBytes (congrArg Frame.host h) ha

/-! ### Inputs of the permit unit -/

/-- The blocker sets are a function of the device state, INHIBIT_N, the mask, the holds and the member entries. -/
theorem State.blockerSets_congr {s t : State} (hd : (t.device = .running) ↔ (s.device = .running))
    (hi : t.inhibitN = s.inhibitN) (hg : t.permits.groupEnable = s.permits.groupEnable)
    (hh : t.permits.holds = s.permits.holds) (hp : ∀ g, t.memberBlocks g = s.memberBlocks g) :
    t.blockerSets = s.blockerSets := by
  unfold State.blockerSets
  congr 1
  funext g
  simp only [State.blockerSet, hd, hi, hg, hh, hp]

theorem State.memberBlocks_congr {s t : State} (h : t.positions = s.positions) (g : GroupId) :
    t.memberBlocks g = s.memberBlocks g := by
  simp only [State.memberBlocks, h]

theorem State.blockerSets_of_frame {s t : State} (h : t.frame = s.frame) (hp : t.positions = s.positions) :
    t.blockerSets = s.blockerSets :=
  State.blockerSets_congr (by rw [Frame.device_eq h]) (Frame.inhibitN_eq h) (Frame.groupEnable_eq h)
    (Frame.holds_eq h) (State.memberBlocks_congr hp)

@[simp] theorem State.blockerSets_settlePermits (s : State) : s.settlePermits.blockerSets = s.blockerSets :=
  State.blockerSets_of_frame (by simp) (by simp)

@[simp] theorem State.blockerSets_postBlock (s : State) : s.postBlock.blockerSets = s.blockerSets :=
  State.blockerSets_of_frame (by simp) (by simp)

@[simp] theorem State.blockerSets_attend (s : State) (r : BitVec 4) : (s.attend r).blockerSets = s.blockerSets :=
  State.blockerSets_of_frame (by simp) (by simp)

/-! ### Current permits -/

theorem State.permitsCurrent_iff {s : State} :
    s.permitsCurrent = true ↔
      s.permits.blockers = s.blockerSets ∧ s.permits.permitWord = permitWordOf s.blockerSets := by
  simp [State.permitsCurrent]

/-- Nothing but the unit's own record and its inputs decides whether the permits are current. -/
theorem State.permitsCurrent_congr {s t : State} (h : t.blockerSets = s.blockerSets) (hp : t.permits = s.permits)
    (hs : s.permitsCurrent = true) : t.permitsCurrent = true := by
  rw [State.permitsCurrent_iff] at hs ⊢
  rw [h, hp]; exact hs

theorem State.settlePermits_current (s : State) : s.settlePermits.permitsCurrent = true := by
  rw [State.permitsCurrent_iff, State.blockerSets_settlePermits]
  exact ⟨rfl, rfl⟩

theorem State.evaluateAndPost_current (s : State) : s.evaluateAndPost.permitsCurrent = true :=
  State.permitsCurrent_congr (s := s.settlePermits) (by simp [State.evaluateAndPost]) (by simp [State.evaluateAndPost])
    s.settlePermits_current

theorem State.evaluatePermits_current (s : State) : s.evaluatePermits.permitsCurrent = true := by
  unfold State.evaluatePermits
  split
  · assumption
  · exact s.evaluateAndPost_current

/-- Permits that follow are left as they are, and nothing is posted. -/
theorem State.evaluatePermits_of_current {s : State} (h : s.permitsCurrent = true) : s.evaluatePermits = s := by
  simp [State.evaluatePermits, h]

theorem State.stopIfIdle_current {s : State} (h : s.permitsCurrent = true) : s.stopIfIdle.permitsCurrent = true := by
  unfold State.stopIfIdle
  split
  · rename_i hc
    refine State.permitsCurrent_congr (s := s) ?_ (by simp) h
    refine State.blockerSets_congr ?_ (by simp) (by simp) (by simp) (State.memberBlocks_congr (by simp))
    simp [hc.1]
  · exact h

/-- After the tail of a step the permits follow their inputs. -/
theorem State.finish_current (s : State) : s.finish.permitsCurrent = true :=
  State.stopIfIdle_current s.evaluatePermits_current

/-! ### The tail of a step -/

theorem State.frame_stopIfIdle (s : State) : s.stopIfIdle.frame = { s.frame with device := s.stopIfIdle.device } := by
  unfold State.stopIfIdle
  split
  · rw [State.frame_postBlock]
    simp [State.frame]
  · rfl

/-- The tail of a step moves nothing of the frame but the device state. -/
theorem State.frame_finish (s : State) : s.finish.frame = { s.frame with device := s.finish.device } := by
  unfold State.finish
  rw [State.frame_stopIfIdle, State.frame_evaluatePermits]

theorem State.stopIfIdle_device (s : State) :
    s.stopIfIdle.device = s.device ∨ (s.device = .stopping ∧ s.stopIfIdle.device = .stopped) := by
  unfold State.stopIfIdle
  split
  · rename_i h; exact Or.inr ⟨h.1, by simp⟩
  · exact Or.inl rfl

/-- The tail of a step changes the device state only from STOPPING to STOPPED (R188). -/
theorem State.finish_device (s : State) :
    s.finish.device = s.device ∨ (s.device = .stopping ∧ s.finish.device = .stopped) := by
  have h := s.evaluatePermits.stopIfIdle_device
  have e : s.evaluatePermits.device = s.device := Frame.device_eq (State.frame_evaluatePermits s)
  rw [e] at h
  exact h

@[simp] theorem State.finish_power (s : State) : s.finish.power = s.power := congrArg Frame.power s.frame_finish
@[simp] theorem State.finish_pending (s : State) : s.finish.pending = s.pending := congrArg Frame.pending s.frame_finish
@[simp] theorem State.finish_watch (s : State) : s.finish.watch = s.watch := congrArg Frame.watch s.frame_finish
@[simp] theorem State.finish_keys (s : State) : s.finish.keys = s.keys := congrArg Frame.keys s.frame_finish
@[simp] theorem State.finish_settings (s : State) : s.finish.settings = s.settings :=
  congrArg Frame.settings s.frame_finish
@[simp] theorem State.finish_cal (s : State) : s.finish.meas.cal = s.meas.cal := congrArg Frame.cal s.frame_finish
@[simp] theorem State.finish_clearing (s : State) : s.finish.clearing = s.clearing :=
  congrArg Frame.clearing s.frame_finish
@[simp] theorem State.finish_attentionEnable (s : State) : s.finish.attentionEnable = s.attentionEnable :=
  congrArg Frame.attentionEnable s.frame_finish
@[simp] theorem State.finish_inhibitN (s : State) : s.finish.inhibitN = s.inhibitN := congrArg Frame.inhibitN s.frame_finish
@[simp] theorem State.finish_rules (s : State) : s.finish.rules = s.rules := congrArg Frame.rules s.frame_finish
@[simp] theorem State.finish_classes (s : State) : s.finish.classes = s.classes := congrArg Frame.classes s.frame_finish
@[simp] theorem State.finish_holds (s : State) : s.finish.permits.holds = s.permits.holds :=
  congrArg Frame.holds s.frame_finish
@[simp] theorem State.finish_groupEnable (s : State) : s.finish.permits.groupEnable = s.permits.groupEnable :=
  congrArg Frame.groupEnable s.frame_finish

theorem State.finish_host (s : State) {a : Nat} (ha : hostByte a = true) : s.finish.mem.read a = s.mem.read a :=
  read_of_hostBytes (congrArg Frame.host s.frame_finish) ha

/-! ### What the tail of a step leaves of the rest of the state -/

@[simp] theorem State.evaluatePermits_positions (s : State) : s.evaluatePermits.positions = s.positions := by
  unfold State.evaluatePermits; split <;> simp

@[simp] theorem State.evaluatePermits_line (s : State) (l : LineId) : s.evaluatePermits.line l = s.line l := by
  unfold State.evaluatePermits; split
  · rfl
  · cases l <;> simp [State.line]

@[simp] theorem State.stopIfIdle_positions (s : State) : s.stopIfIdle.positions = s.positions := by
  unfold State.stopIfIdle; split <;> simp

@[simp] theorem State.stopIfIdle_line (s : State) (l : LineId) : s.stopIfIdle.line l = s.line l := by
  unfold State.stopIfIdle; split
  · cases l <;> simp [State.line]
  · rfl

/-- The tail of a step leaves every position as it is. -/
@[simp] theorem State.finish_positions (s : State) : s.finish.positions = s.positions := by simp [State.finish]

@[simp] theorem State.finish_pos (s : State) (p : PosId) : s.finish.pos p = s.pos p := State.pos_congr (by simp) p

/-- The tail of a step leaves both lines as they are. -/
@[simp] theorem State.finish_line (s : State) (l : LineId) : s.finish.line l = s.line l := by simp [State.finish]

@[simp] theorem State.evaluatePermits_slots (s : State) : s.evaluatePermits.slots = s.slots := by
  unfold State.evaluatePermits; split <;> simp

@[simp] theorem State.evaluatePermits_meas (s : State) : s.evaluatePermits.meas = s.meas := by
  unfold State.evaluatePermits; split <;> simp

@[simp] theorem State.evaluatePermits_identity (s : State) : s.evaluatePermits.identity = s.identity := by
  unfold State.evaluatePermits; split <;> simp

@[simp] theorem State.evaluatePermits_retired (s : State) : s.evaluatePermits.retired = s.retired := by
  unfold State.evaluatePermits; split <;> simp

@[simp] theorem State.finish_slots (s : State) : s.finish.slots = s.slots := by
  unfold State.finish State.stopIfIdle; split <;> simp

@[simp] theorem State.finish_meas (s : State) : s.finish.meas = s.meas := by
  unfold State.finish State.stopIfIdle; split <;> simp

@[simp] theorem State.finish_identity (s : State) : s.finish.identity = s.identity := by
  unfold State.finish State.stopIfIdle; split <;> simp

@[simp] theorem State.finish_retired (s : State) : s.finish.retired = s.retired := by
  unfold State.finish State.stopIfIdle; split <;> simp

theorem State.memOk_stopIfIdle {s : State} (h : s.memOk) : s.stopIfIdle.memOk := by
  unfold State.stopIfIdle
  split
  · exact State.memOk_postBlock _ h
  · exact h

/-- The tail of a step keeps the canonical form of the exchange memory. -/
theorem State.memOk_finish {s : State} (h : s.memOk) : s.finish.memOk :=
  State.memOk_stopIfIdle (State.memOk_evaluatePermits _ h)

/-- Where the permits follow and nothing is left to stop, the tail of a step changes nothing. -/
theorem State.finish_of_settled {s : State} (h : s.permitsCurrent = true) (hd : s.device ≠ .stopping) :
    s.finish = s := by
  simp [State.finish, State.evaluatePermits_of_current h, State.stopIfIdle, hd]

end Sys2Proof.Machine
end

