-- ==== Sys2Proof/Laws/Tasks.lean ====
section
/-! SUPPORT. The task unit: what a task kind does when its slot stands at the head of the watch queue, and what taking
and completing a slot leave in the owner word; the calibration waiting list. -/
namespace Sys2Proof.Machine

theorem slotOfWatch_watchOfSlot (k : SlotId) : slotOfWatch (watchOfSlot k) = some k := by
  simp [slotOfWatch, watchOfSlot]

theorem posOfWatch_watchOfPos (p : PosId) : posOfWatch (watchOfPos p) = some p := by
  obtain ⟨p, hp⟩ := p
  simp [posOfWatch, watchOfPos, hp]

/-- The entry at the head leaves the queue. -/
theorem State.takeEntry_of_head {s : State} {i : WatchId} {rest : List WatchId} (h : s.entryAtHead i rest) :
    s.takeEntry = some (i, s.withWatch rest) := by
  obtain ⟨hp, hd, hw⟩ := h
  simp [State.takeEntry, hp, hd, hw, State.withWatch]

theorem State.takeOwner_of_head {s : State} {k : SlotId} {rest : List WatchId}
    (h : s.entryAtHead (watchOfSlot k) rest) : s.takeOwner = some (k, s.withWatch rest) := by
  simp [State.takeOwner, State.takeEntry_of_head h, slotOfWatch_watchOfSlot]

@[simp] theorem State.withWatch_owner (s : State) (rest : List WatchId) (k : SlotId) :
    (s.withWatch rest).owner k = s.owner k := rfl
@[simp] theorem State.withWatch_slot (s : State) (rest : List WatchId) (k : SlotId) :
    (s.withWatch rest).slot k = s.slot k := rfl
@[simp] theorem State.withWatch_pos (s : State) (rest : List WatchId) (p : PosId) :
    (s.withWatch rest).pos p = s.pos p := rfl
@[simp] theorem State.withWatch_line (s : State) (rest : List WatchId) (l : LineId) :
    (s.withWatch rest).line l = s.line l := by cases l <;> rfl

theorem State.takeReady_of_head {s : State} {k : SlotId} {kind : Word16} {rest : List WatchId}
    (h : s.taskAtHead k kind rest) : s.takeReady = some (k, s.taken k rest) := by
  obtain ⟨he, ho, hm, _⟩ := h
  simp [State.takeReady, State.takeOwner_of_head he, ho, hm, State.taken]

/-- The slot after the task has been taken (R183). -/
@[simp] theorem State.taken_slot (s : State) (k : SlotId) (rest : List WatchId) :
    (s.taken k rest).slot k =
      { mark := .held, kind := s.kindWord k, payload := s.slotPayload k, cancelHanded := false } := by
  simp only [State.slot, State.taken, State.takeSlot, State.setSlot, Vector.getElem_set_self]
  rfl

/-- A task whose slot stands at the head of the watch queue is run on the state in which the slot is taken. -/
theorem State.runTask_of_head {s : State} {k : SlotId} {kind : Word16} {rest : List WatchId}
    (h : s.taskAtHead k kind rest) (work : SlotId → State → State) :
    s.runTask kind work = work k (s.taken k rest) := by
  simp [State.runTask, State.takeTask, State.takeReady_of_head h, h.2.2.2]

/-- What taking an entry answers: nothing, or the head of the watch queue. -/
theorem State.takeEntry_cases (s : State) :
    s.takeEntry = none ∨ ∃ i rest, s.entryAtHead i rest ∧ s.takeEntry = some (i, s.withWatch rest) := by
  unfold State.takeEntry
  split
  · rename_i h
    split
    · exact Or.inl rfl
    · rename_i i rest hw
      exact Or.inr ⟨i, rest, ⟨h.1, h.2, hw⟩, rfl⟩
  · exact Or.inl rfl

theorem State.takeOwner_cases (s : State) :
    s.takeOwner = none ∨ ∃ k rest, s.entryAtHead (watchOfSlot k) rest ∧ s.takeOwner = some (k, s.withWatch rest) := by
  unfold State.takeOwner
  rcases s.takeEntry_cases with h | ⟨i, rest, h, e⟩
  · simp [h]
  · rw [e]
    by_cases hi : 25 ≤ i.val
    · refine Or.inr ⟨⟨i.val - 25, by omega⟩, rest, ?_, by simp [slotOfWatch, hi]⟩
      have : watchOfSlot ⟨i.val - 25, by omega⟩ = i := Fin.ext (by simp only [watchOfSlot]; omega)
      rw [this]; exact h
    · exact Or.inl (by simp [slotOfWatch, hi])

theorem State.takeReady_cases (s : State) :
    s.takeReady = none ∨ ∃ k rest, s.taskAtHead k (s.kindWord k) rest ∧ s.takeReady = some (k, s.taken k rest) := by
  unfold State.takeReady
  rcases s.takeOwner_cases with h | ⟨k, rest, h, e⟩
  · simp [h]
  · rw [e]
    by_cases hc : (s.withWatch rest).owner k = ownerReady ∧ ((s.withWatch rest).slot k).mark ≠ .held
    · exact Or.inr ⟨k, rest, ⟨h, hc.1, hc.2, rfl⟩, if_pos hc⟩
    · exact Or.inl (if_neg hc)

/-- What running a task does: nothing, or its work on the slot at the head of the watch queue. -/
theorem State.runTask_cases (s : State) (kind : Word16) (work : SlotId → State → State) :
    s.runTask kind work = s ∨
      ∃ k rest, s.taskAtHead k kind rest ∧ s.runTask kind work = work k (s.taken k rest) := by
  unfold State.runTask State.takeTask
  rcases s.takeReady_cases with h | ⟨k, rest, h, e⟩
  · simp [h]
  · rw [e]
    by_cases hk : s.kindWord k = kind
    · exact Or.inr ⟨k, rest, hk ▸ h, by simp [hk]⟩
    · exact Or.inl (by simp [hk])

@[simp] theorem State.taken_payload (s : State) (k : SlotId) (rest : List WatchId) :
    (s.taken k rest).payload k = s.slotPayload k := by simp [State.payload]

@[simp] theorem State.taken_pos (s : State) (k : SlotId) (rest : List WatchId) (p : PosId) :
    (s.taken k rest).pos p = s.pos p := rfl

@[simp] theorem State.taken_positions (s : State) (k : SlotId) (rest : List WatchId) :
    (s.taken k rest).positions = s.positions := rfl

@[simp] theorem State.taken_line (s : State) (k : SlotId) (rest : List WatchId) (l : LineId) :
    (s.taken k rest).line l = s.line l := by cases l <;> rfl

@[simp] theorem State.taken_watch (s : State) (k : SlotId) (rest : List WatchId) : (s.taken k rest).watch = rest := rfl

@[simp] theorem State.taken_permits (s : State) (k : SlotId) (rest : List WatchId) :
    (s.taken k rest).permits = s.permits := rfl

@[simp] theorem State.taken_device (s : State) (k : SlotId) (rest : List WatchId) :
    (s.taken k rest).device = s.device := rfl

theorem State.memOk_taken {s : State} (h : s.memOk) (k : SlotId) (rest : List WatchId) : (s.taken k rest).memOk :=
  Memory.wf_writeWord h _ _

/-- Taking a slot moves nothing of the frame but the watch queue. -/
theorem State.frame_taken (s : State) (k : SlotId) (rest : List WatchId) :
    (s.taken k rest).frame = { s.frame with watch := rest } := by
  rw [State.taken, State.frame_takeSlot]; rfl

/-! ### Owner words -/

theorem slotAddr_add_one_lt (k : SlotId) : slotAddr k + 1 < Memory.size := by
  obtain ⟨k, hk⟩ := k; simp only [slotAddr, Memory.size]; omega

/-- A slot that has been taken reads TAKEN (R183). -/
@[simp] theorem State.taken_owner (s : State) (k : SlotId) (rest : List WatchId) :
    (s.taken k rest).owner k = ownerTaken := by
  unfold State.owner State.taken State.takeSlot
  exact Memory.word_writeWord _ _ (slotAddr_add_one_lt k)

theorem State.postBlock_owner (s : State) (k : SlotId) : s.postBlock.owner k = s.owner k := by
  obtain ⟨k, hk⟩ := k
  exact Memory.word_congr
    (postBlock_read s (by simp only [slotAddr, Memory.size]; omega) (by simp only [slotAddr]; omega)
      (by simp only [slotAddr]; omega))
    (postBlock_read s (by simp only [slotAddr, Memory.size]; omega) (by simp only [slotAddr]; omega)
      (by simp only [slotAddr]; omega))

theorem State.postHalf_owner (s : State) (p : PosId) (k : SlotId) : (s.postHalf p).owner k = s.owner k := by
  obtain ⟨k, hk⟩ := k
  obtain ⟨p, hp⟩ := p
  exact Memory.word_congr
    (postHalf_read s _ (by simp only [slotAddr, Memory.size]; omega)
      (by simp only [slotAddr, stateHalfAddr, positionAddr]; omega) (by simp only [slotAddr, extensionAddr]; omega))
    (postHalf_read s _ (by simp only [slotAddr, Memory.size]; omega)
      (by simp only [slotAddr, stateHalfAddr, positionAddr]; omega) (by simp only [slotAddr, extensionAddr]; omega))

/-- R186: a completed slot reads DONE, unless its owner word held FREE or DONE. -/
theorem State.complete_owner (s : State) (k : SlotId) (st : TaskStatus) (d : List Byte) :
    (s.complete k st d).owner k =
      if s.owner k = ownerFree ∨ s.owner k = ownerDone then s.owner k else ownerDone := by
  have hk := slotAddr_add_one_lt k
  have hr : ∀ a, a = slotAddr k ∨ a = slotAddr k + 1 →
      (s.mem.write (slotAddr k + 0x82) (resultBytes st d)).read a = s.mem.read a := fun a ha =>
    Memory.read_write_ne _ _ _ (by simp only [resultBytes_length]; omega) (by omega)
  split
  · rename_i h
    show Memory.word _ _ = _
    simp only [State.complete, h, if_true]
    exact Memory.word_congr (hr _ (Or.inl rfl)) (hr _ (Or.inr rfl))
  · rename_i h
    show Memory.word _ _ = _
    simp only [State.complete, h, if_false]
    exact Memory.word_writeWord _ _ hk

/-- The mark of a completed slot (R186). -/
theorem State.complete_slot (s : State) (k : SlotId) (st : TaskStatus) (d : List Byte) :
    (s.complete k st d).slot k =
      { TaskSlot.reset with mark := if s.owner k = ownerFree ∨ s.owner k = ownerDone then .host else .answered } := by
  simp only [State.slot, State.complete, State.setSlot, Vector.getElem_set_self]

/-- A completion leaves the other slots' marks as they are. -/
theorem State.complete_slot_ne (s : State) {k j : SlotId} (st : TaskStatus) (d : List Byte) (h : j ≠ k) :
    (s.complete k st d).slot j = s.slot j := by
  simp only [State.slot, State.complete, State.setSlot]
  exact Vector.getElem_set_ne _ _ (fun e => h (Fin.ext e.symm))

/-! ### The calibration waiting list (R85) -/

theorem MeasUnit.calibrating_iff (u : MeasUnit) : u.calibrating = true ↔
    (∃ r ∈ u.queue, r.slot ≠ none) ∨ ∃ f, u.inFlight = some f ∧ f.request.slot ≠ none := by
  unfold MeasUnit.calibrating
  rw [Bool.or_eq_true, List.any_eq_true]
  simp only [Option.isSome_iff_ne_none]
  cases u.inFlight <;> simp [Option.isSome_iff_ne_none]

theorem State.channelInUse_iff (s : State) (c : ChannelId) : s.channelInUse c = true ↔
    ∃ p, (s.pos p).enabled = true ∧ (s.pos p).applied.channel = some c := by
  unfold State.channelInUse
  rw [List.any_eq_true]
  constructor
  · rintro ⟨x, hx, h⟩
    obtain ⟨i, hi, rfl⟩ := List.mem_iff_getElem.mp hx
    simp only [Vector.length_toList] at hi
    exact ⟨⟨i, hi⟩, by simpa [State.pos] using h⟩
  · rintro ⟨p, h1, h2⟩
    exact ⟨s.pos p, by simp [State.pos], by simp [h1, h2]⟩

/-- The tasks are given as an argument, so the list that stands in the unit makes no difference. -/
theorem advanceWaiting_ignores (l : List MeasRequest) (s : State) (w : List MeasRequest) :
    advanceWaiting l { s with meas := { s.meas with waiting := w } } = advanceWaiting l s := by
  induction l generalizing s with
  | nil => rfl
  | cons r rs ih =>
    unfold advanceWaiting
    have h : ({ s with meas := { s.meas with waiting := w } } : State).channelInUse r.channel = s.channelInUse r.channel :=
      rfl
    rw [h]
    split
    · split
      · rename_i k _
        exact ih (s.completeFree k .inUse)
      · exact ih s
    · rfl

end Sys2Proof.Machine
end

