-- ==== Sys2Proof/Tests/Slice0.lean ====
section
/-! SUPPORT. Tests: what WellFormed refuses, the manual's worked examples, the effect of commands on small states, and for
every statement with hypotheses a state and operands that meet them. -/
namespace Sys2Proof.Tests

open Sys2Proof Sys2Proof.Machine

set_option Elab.async false

/-! ### Small states -/

/-- An IDLE line. -/
def idleLine : LineCtl := { LineCtl.reset with state := .idle, activity := .none }

/-- A RUNNING device with idle lines, nothing enabled, INHIBIT_N high. -/
def base : State :=
  { State.reset with
    device := .running, clearing := false, inhibitN := true, keys := { KeyStore.reset with locked := false },
    permits := { PermitUnit.reset with blockers := Vector.replicate 8 0b00100 }, lineA := idleLine, lineB := idleLine }

/-- The state after a command. -/
def after (c : Instr) (s : State) : State :=
  match exec c s with
  | .next t => t
  | .fault _ => s
  | .refused _ => s

/-- A READY task in slot `k` at the head of the watch queue. -/
def withTask (k : SlotId) (kind : Word16) (payload : List Byte) : State :=
  { base with
    mem := ((Memory.writeWord [] (slotAddr k) ownerReady).writeWord (slotAddr k + 2) kind).write (slotAddr k + 4) payload
    watch := [watchOfSlot k] }

/-- An owner word as the host wrote it, at the head of the watch queue. -/
def withOwner (k : SlotId) (mark : SlotMark) (kind w : Word16) : State :=
  { base.setSlot k { mark := mark, kind := kind, payload := [], cancelHanded := false } with
    mem := Memory.writeWord [] (slotAddr k) w, watch := [watchOfSlot k] }

/-- The configuration half of position 4 with these bytes, its edition at the head of the watch queue. -/
def withHalf (bytes : List Byte) : State :=
  { base with mem := Memory.write [] (positionAddr 4) bytes, watch := [watchOfPos 4] }

/-- Line A, address 9, no channel, input or group, OBSERVE, TAG, interval 5, threshold 1, accept class 310. -/
def goodHalf : List Byte :=
  [1, 0, 1, 0, 9, 0xFF, 0xFF, 0xFF, 0, 0, 0, 0, 5, 0, 1, 0, 7, 0, 0, 0, 0x36, 0x01, 0, 0, 0, 0, 0, 0]

/-- Line A and position 4 as given. -/
def withLine (x : LineCtl) : State := { base with lineA := x }
def withPos (x : Position) : State := base.setPos 4 x

/-- The sealing jaw's UID (section 2.2). -/
def jaw : Word64 := 0x3C10452A0B7E190F

/-- Its identity record, bound at position 4. -/
def jawRecord : IdentityRecord :=
  { uid := jaw, classCode := 310, bound := some 4, known := 100, rejects := 0, contest := [] }

/-- An enabled position 4 that holds the jaw, CLEARED. -/
def fitted : Position :=
  { Position.reset with enabled := true, seq := .idle, uid := .bound jaw, verdict := .cleared, timer := .running 5,
                        applied := { PosConfig.reset with address := 9, cycleInput := some 2, interval := 5, threshold := 1,
                                                          grace := 7, group := some 0, enforcement := .enforce } }

def withJaw (x : Position) : State := { withPos x with identity := [jawRecord] }

/-- A READ_BLOCKS request of task slot 3, and its transaction. -/
def readRequest : LineRequest := { requester := .task 3, address := 9, command := .readBlocks 0 1 }

def reading (d : Disposition) (retries : Nat) : Transaction :=
  { request := readRequest, retries := retries, lastError := some .noReply, disposition := d }

/-- The task of this kind stands at the head. -/
theorem head_of {s : State} {k : SlotId} {kind : Word16} {rest : List WatchId}
    (h : s.power = .on ∧ s.device ≠ .starting ∧ s.watch = watchOfSlot k :: rest ∧ s.owner k = ownerReady ∧
      (s.slot k).mark ≠ .held ∧ s.kindWord k = kind) : s.taskAtHead k kind rest :=
  ⟨⟨h.1, h.2.1, h.2.2.1⟩, h.2.2.2.1, h.2.2.2.2.1, h.2.2.2.2.2⟩

/-! ### WellFormed refuses -/

theorem test_wf_hostWord : (Instr.hostWordWrite 0x0080 5).wf = false ∧ (Instr.hostWordWrite 0x0041 5).wf = true := by
  decide +kernel

theorem test_wf_registerOther : (Instr.registerWriteOther 1 0x00A5).wf = false ∧
    (Instr.registerWriteOther 2 0).wf = false ∧ (Instr.registerWriteOther 0 0x00A5).wf = true := by decide +kernel

theorem test_wf_readbackBit : (Instr.readbackFailure .A 135 true).wf = false ∧
    (Instr.readbackFailure .A 134 true).wf = true := by decide +kernel

theorem test_wf_pace : (Instr.replyStart .A ⟨0, 10, 10, 10, true⟩).wf = false ∧
    (Instr.replyStart .A ⟨10, 10, 10, 0, true⟩).wf = false ∧ (Instr.replyStart .A ⟨1, 1, 1, 1, true⟩).wf = true := by
  decide +kernel

/-! ### The manual's worked examples -/

/-- Section 2.2. -/
theorem test_uid : uidWellFormed jaw = true ∧ uidWellFormed 0x3C10452A0B7E191F = false ∧ uidWellFormed 0 = true := by
  decide +kernel

/-- Section 3.2: address bytes, the two worked check bytes, QUIET. -/
theorem test_checkBytes : addressByte 9 = 0x49 ∧ addressByte 31 = 0xBF ∧ checkByte [0x49, 0x21, 0, 7] = 0x8E ∧
    checkByte [0xBF, 0x31, 0xA7, 0x3C, 0xF0, 0x19, 0x88, 0x5E, 0xD2, 0x04] = 0x63 ∧
    quietCall = [0x55, 0x00, 0x7E, 0x81] := by decide +kernel

/-- Section 3.3, Table 2. -/
theorem test_pace : measurePace ⟨1736, 1736, 1736, 1736, true⟩ = .measured 6944 9601 ∧
    measurePace ⟨1350, 1350, 1350, 1350, true⟩ = .measured 5400 12346 ∧
    measurePace ⟨1325, 1325, 1325, 1325, true⟩ = .malformed := by decide +kernel

/-- Samples with a given sum. -/
def summing (n : Int) : List Word16 :=
  BitVec.ofInt 16 (n / 16 + n % 16) :: List.replicate 15 (BitVec.ofInt 16 (n / 16))

def jawChannel : CalRecord := { offset := 46, gain := 196608 }

/-- Sections 5.5 and 5.6. -/
theorem test_jaws :
    signatureStages (summing 192740) jawChannel 360 34800 142730 120 85 15000 =
      ⟨0, some 36000, some 35322, some 35220, some 2896, some 360⟩ ∧
    signatureStages (summing 196690) jawChannel 352 34800 0 120 85 15000 =
      ⟨0x0200, some 36741, some 36066, some 34800, some 36379, some 352⟩ ∧
    signatureStages (summing 196690) jawChannel 352 34800 380000 120 85 15000 =
      ⟨0, some 36741, some 36066, some 35924, some 3952, some 352⟩ := by decide +kernel

/-- Section 5.7. -/
theorem test_limitCases :
    signatureStages (32767 :: List.replicate 15 100) jawChannel 360 34800 0 120 85 15000 =
      ⟨0x0400, none, none, none, none, none⟩ ∧
    signatureStages (summing 720) jawChannel 360 34800 0 120 85 15000 = ⟨0x0400, some 0, none, none, none, none⟩ ∧
    resistance 30000 16777215 = 4000000 ∧ divisor 6000 (-80) = 1280000 ∧ wearTerm 2000 200000 = 250000 ∧
    expected 1 (-250000) = 1 ∧ expected 9000000 0 = 4000000 ∧ bandLow 1 200000 = 0 ∧ bandHigh 1 200000 = 2 ∧
    deviationOf 4000000 1 = 999999 ∧ deviationOf 0 35220 = -999999 := by decide +kernel

/-- Section 5.3. -/
theorem test_calibration : calOutcome .offset 0 CalRecord.reset (summing (-500)) =
      (.ok, { offset := BitVec.ofInt 16 (-31), gain := 196608 }) ∧
    calOutcome .gain 50000 { offset := BitVec.ofInt 16 (-31), gain := 196608 } (summing 266500) =
      (.ok, { offset := BitVec.ofInt 16 (-31), gain := 196368 }) ∧
    average (summing 24) = 2 ∧ average (summing (-24)) = -2 := by decide +kernel

/-- Section 8.6: cycle 7 trips, cycle 11 recovers, cycle 12 forgives. -/
theorem test_verdictExample :
    let limits : Limits := { trip := 3, recover := 4, forgive := 5, latch := 3 }
    let result (k : ResultKind) (f : Word16) : Result :=
      { kind := k, concerned := some jaw, findings := f, reason := .none, limits := limits }
    let doubted := withJaw { fitted with verdict := .doubtful, doubt := 2, grace := 100 }
    let tripped := doubted.applyResult 4 (result .findings 0x0200)
    let ready := (withJaw { fitted with verdict := .rejected, clean := 3 }).modRecord jaw (fun r => { r with rejects := 1 })
    let recovered := ready.applyResult 4 (result .clean 0)
    let forgiven := recovered.applyResult 4 (result .clean 0)
    ((tripped.pos 4).verdict, (tripped.pos 4).doubt, (tripped.pos 4).grace, (tripped.record jaw).map (·.rejects)) =
      (.rejected, 0, 0, some 1) ∧
    ((recovered.pos 4).verdict, (recovered.pos 4).clean, (recovered.pos 4).grace,
      (recovered.record jaw).map (·.rejects)) = (.cleared, 4, 7, some 1) ∧
    ((forgiven.pos 4).verdict, (forgiven.pos 4).clean, (forgiven.record jaw).map (·.rejects)) =
      (.cleared, 5, some 0) := by decide +kernel

/-- Section 10.3: class 412. -/
theorem test_classExample :
    let t := after .classLoad (withTask 2 0x0F
      ([0x9C, 0x01, 6, 0] ++ leBytes 4 250000 ++ [0, 0] ++ leBytes 2 (65536 - 3000) ++ leBytes 2 9200 ++
        leBytes 2 13000 ++ [2, 20, 50, 3]))
    t.mem.word 0x1282 = 1 ∧ t.classes = [{
      code := 412, keySlot := 6, mode := .none, tau := 200000, alpha := 0, beta := BitVec.ofInt 16 (-2000),
      bandLo := 9200, bandHi := 12500, trip := 2, recover := 16, forgive := 50, latch := 3 }] ∧ t.owner 2 = ownerDone := by decide +kernel

/-! ### Effects of commands -/

theorem test_reset : State.reset.mem.wf = true ∧ State.reset.attnN = true ∧ State.reset.device = .starting := by
  decide +kernel

theorem test_startup : (after (.startupCheckEnd 0) State.reset).device = .running ∧
    (after (.startupCheckEnd 0) State.reset).attention = 0b1001 ∧
    (after (.startupCheckEnd 0) State.reset).mem.read 2 = 1 := by decide +kernel

theorem test_stopAtRest : (after .stop base).device = .stopped := by decide +kernel

theorem test_enable :
    let t := after .configEditionTaken (withHalf goodHalf)
    (t.pos 4).seq = .cycle ∧ (t.pos 4).configStatus = .applied ∧ (t.pos 4).appliedEdition = 1 ∧
      (t.line .A).queue = [{ requester := .position 4, address := 9, command := .readBlocks 0 7 }] ∧
      (t.line .B).queue = [] := by decide +kernel

theorem test_badAddress :
    ((after .configEditionTaken (withHalf (goodHalf.set 4 32))).pos 4).refusal = .badAddress := by decide +kernel

theorem test_pulse :
    let t := after (.cyclePulse 2) (withJaw { fitted with verdict := .doubtful, grace := 1 })
    (t.pos 4).inFlight = 1 ∧ (t.pos 4).seq = .commit ∧ (t.pos 4).grace = 0 ∧ t.pulses[2] = 1 := by decide +kernel

theorem test_permitsOn :
    let t := after .permitFree { withTask 0 0x0E [0xFF, 0] with permits := { base.permits with groupEnable := 0x81, holds := 1 } }
    t.permits.permitWord = 0x81 ∧ t.permitOutput 7 = true ∧ t.permitOutput 1 = false ∧ t.owner 0 = ownerDone := by
  decide +kernel

theorem test_tagRead :
    let c := { idleLine with
      state := .receiving, activity := .call, inFlight := some (reading .live 1), pace := .measured 6944 9601 }
    let es := [0, 1, 0xDE, 0xAD, 0xBE, 0xEF].map (charEdge 0) ++ [charEdge 0 (checkByte [0, 1, 0xDE, 0xAD, 0xBE, 0xEF])]
    let t := after (.replyComplete .A es) (withLine c)
    t.mem.bytes 0x1382 12 = [0, 0, 0, 1, 0x81, 0x25, 1, 0, 0xDE, 0xAD, 0xBE, 0xEF] ∧ (t.line .A).state = .idle := by
  decide +kernel

theorem test_unlock :
    let s := { base with keys := { base.keys with
      slots := base.keys.slots.set 0 (.valid 0xABCD), locked := true, attempts := 1,
      queue := [{ slot := 5, op := .unlock 0xABCE }] } }
    (after .keyTaskServe s).keys.attempts = 0 ∧ (after .keyTaskServe s).mem.word 0x1582 = 0x21 := by decide +kernel

/-! ### Every statement's hypotheses are met -/

theorem test_met_stepRuns : State.reset.pending = [] := rfl

/-- A state in which the permits follow, with INHIBIT_N about to go low. -/
def inhibiting : State := { base with pending := [.inhibitNChange false] }

theorem inhibiting_follows : inhibiting.permitsFollow := by unfold State.permitsFollow; decide +kernel

theorem test_met_permitsFollowKept : ∃ s t : State, s.permitsFollow ∧ step s = .next t :=
  ⟨inhibiting, _, inhibiting_follows, rfl⟩

/-- Groups 0 and 7 enabled, group 0 held: PERMIT7 is ON. -/
def permitting : State :=
  { base with permits := { base.permits with groupEnable := 0x81, holds := 1 } }.settlePermits

theorem test_met_permitOutput : permitting.permitsFollow ∧ permitting.power = .on ∧
    permitting.permitOutput 7 = true ∧ permitting.permitOutput 0 = false := by
  unfold State.permitsFollow; decide +kernel

theorem test_met_blockers : permitting.permitsFollow ∧ permitting.power = .on ∧
    permitting.permits.blockers[(7 : GroupId).val] = 0 ∧ permitting.permits.blockers[(0 : GroupId).val] = 0b01000 := by
  unfold State.permitsFollow; decide +kernel

theorem test_met_memoryCanonical : ∃ s t : State, s.memCanonical ∧ step s = .next t :=
  ⟨{ withTask 7 0x0C [1, 2, 3] with pending := [.rulesLoad] }, _, by unfold State.memCanonical; decide +kernel, rfl⟩

theorem test_met_watchQueue : ∃ s t : State, s.watchDistinct ∧ step s = .next t ∧ s.watch.length = 33 :=
  ⟨{ base with watch := List.finRange 33, pending := [.watchedWordWrite 0 1] }, _,
    by unfold State.watchDistinct; decide +kernel, rfl, by decide +kernel⟩

theorem test_met_lockSound : ∃ s t : State, s.lockSound ∧ step s = .next t ∧ s.keys.attempts = 3 ∧ s.keys.locked = true :=
  ⟨{ base with
      pending := [.keyTaskServe]
      keys := { base.keys with slots := base.keys.slots.set 0 (.valid 7), locked := true } }, _,
    by unfold State.lockSound; decide +kernel, rfl, rfl, rfl⟩

theorem test_met_ranges : ∃ s t : State, s.settingsInRange ∧ s.calInRange ∧ step s = .next t :=
  ⟨inhibiting, _, by unfold State.settingsInRange; decide +kernel, by unfold State.calInRange; decide +kernel, rfl⟩

theorem test_met_hostBytes : ∃ (c : Instr) (s t : State), writesHostBytes c = false ∧ hostByte 128 = true ∧
    hostByte 0x3FFF = true ∧ exec c s = .next t :=
  ⟨.stop, base, _, by decide +kernel, by decide +kernel, by decide +kernel, rfl⟩

theorem test_met_posted : (∃ a, a < Memory.size ∧ ¬ a < 128 ∧ ¬ (0x0D00 ≤ a ∧ a < 0x0D90)) ∧
    ∃ a, a < Memory.size ∧ ¬ (0x0140 + 128 * (23 : PosId).val ≤ a ∧ a < 0x0180 + 128 * (23 : PosId).val) ∧
      ¬ (0x1800 + 32 * (23 : PosId).val ≤ a ∧ a < 0x1820 + 32 * (23 : PosId).val) :=
  ⟨⟨128, by decide⟩, ⟨0x1B00, by decide⟩⟩

theorem test_met_completed : (List.replicate 124 (7 : Byte)).length ≤ 124 ∧ base.owner 7 = 0x0000 ∧
    (withOwner 7 .held 1 0x5A02).owner 7 ≠ 0x0000 ∧ (withOwner 7 .held 1 0x5A02).owner 7 ≠ 0x5A03 ∧
    (0 : SlotId) ≠ 7 := by decide +kernel

theorem test_met_taken : (withTask 7 0x15 []).taskAtHead 7 0x15 [] ∧ 0x14 < (0x15 : Word16).toNat ∧
    (withTask 0 0 []).taskAtHead 0 0 [] :=
  ⟨head_of (by decide +kernel), by decide, head_of (by decide +kernel)⟩

theorem test_met_tail : (base.device ≠ .stopping ∧ base.permitsCurrent = true) ∧
    ∃ s : State, s.device = .stopping ∧ s.atRest := by
  refine ⟨by decide +kernel, { base with device := .stopping }, rfl, ?_, ?_, rfl, rfl⟩
  · decide +kernel
  · intro l; cases l <;> decide +kernel

theorem test_met_placed : (base.line .B).state ≠ .quiet ∧
    ((withLine { idleLine with state := .quiet }).line .A).state = .quiet := by decide +kernel

/-- Cases of the sequencer's choice at position 4. -/
theorem test_met_choice :
    (Position.reset.seq ≠ .idle) ∧ ((withHalf goodHalf).pos 4).seq = .off ∧
    (let s := withJaw { fitted with editionWaiting := true };
      (s.pos 4).seq = .idle ∧ (s.pos 4).editionWaiting = true ∧ s.device = .running) ∧
    (let s := { withJaw fitted with device := .stopped };
      (s.pos 4).seq = .idle ∧ (s.pos 4).editionWaiting = false ∧ s.device ≠ .running) ∧
    (let s := withJaw { fitted with owed := true };
      (s.pos 4).seq = .idle ∧ (s.pos 4).owed = true ∧ s.device = .running ∧
        (s.line (s.pos 4).applied.line).state ≠ .stuck) ∧
    (let s := withJaw { fitted with commitWaiting := [3] };
      (s.pos 4).owed = false ∧ (s.pos 4).boundUid ≠ none ∧ (s.pos 4).unconfirmed = false ∧ (s.pos 4).pendingUse = 0 ∧
        (s.pos 4).commitWaiting ≠ []) ∧
    (let s := withJaw { fitted with pendingUse := 1 };
      (s.pos 4).applied.threshold.toNat ≤ (s.pos 4).pendingUse.toNat ∧ (s.pos 4).pendingUse ≠ 0) := by decide +kernel

/-- Off, and held in reset. -/
def unpowered : State := base.holdReset .off
def held : State := base.holdReset .held

theorem test_met_supply : unpowered.power = .off ∧ held.power ≠ .off ∧ base.power ≠ .off := by decide +kernel

theorem test_met_release : held.power = .held ∧ base.power ≠ .held := by decide +kernel

theorem test_met_startupCheck : (State.reset.power = .on ∧ State.reset.device = .starting) ∧
    ¬ (base.power = .on ∧ base.device = .starting) := by decide +kernel

theorem test_met_stopResume : base.power = .on ∧ base.device = .running ∧ State.reset.device ≠ .running ∧
    (after .stop base).device = .stopped ∧ (after .stop base).power = .on ∧
    (after .stop (withJaw { fitted with seq := .cycle })).device = .stopping := by decide +kernel

theorem test_met_restart : State.reset.power = .on ∧ State.reset.device = .starting ∧ base.device ≠ .starting ∧
    ((withOwner 0 .held 1 0x5A02).slot 0).mark = .held ∧ (base.slot 7).mark ≠ .held := by decide +kernel

theorem test_met_registers : base.power = .on ∧ (0xFFFF : Word16) ≠ 0x0001 ∧ (0xFFFF : Word16) ≠ 0x0002 ∧
    (0xFFFF : Word16) ≠ 0x00A5 := by decide +kernel

theorem test_met_hostWrites : base.power = .on ∧ base.clearing = false ∧ wfHostWord 0x1FFF = true ∧
    wfHostWord 0 = true ∧ State.reset.power = .on ∧ State.reset.clearing = true := by decide +kernel

/-- What `goodHalf` configures. -/
def goodConfig : PosConfig := { PosConfig.reset with address := 9, accept := [310], interval := 5, threshold := 1, grace := 7 }

/-- The bytes of a half at position 4, read back. -/
theorem test_met_halfExamined :
    let m (bytes : List Byte) := Memory.write [] (positionAddr 4) bytes
    examineHalf (m [1, 0, 0]) 4 = .disabled ∧ examineHalf (m (goodHalf.set 3 2)) 4 = .refused .badValue ∧
    examineHalf (m (goodHalf.set 4 0)) 4 = .refused .badAddress ∧
    examineHalf (m (goodHalf.set 4 32)) 4 = .refused .badAddress ∧
    examineHalf (m (goodHalf.set 5 24)) 4 = .refused .badValue ∧
    examineHalf (m (goodHalf.set 9 2)) 4 = .refused .badValue ∧
    examineHalf (m (goodHalf.set 4 31)) 4 = .accepted { goodConfig with address := 31 } false := by decide +kernel

theorem test_met_bindingEnds : ((withJaw fitted).pos 4).boundUid ≠ none ∧ ((withJaw fitted).pos 4).commitWaiting = [] ∧
    (base.pos 4).boundUid = none ∧ (5 : PosId) ≠ 4 := by decide +kernel

/-- Position 4 fitted, with the half of these bytes at the head of the watch queue. -/
def refitting (x : Position) (bytes : List Byte) : State :=
  { withHalf bytes with positions := (withPos x).positions, identity := [jawRecord] }

theorem entry_of {s : State} {i : WatchId} {rest : List WatchId}
    (h : s.power = .on ∧ s.device ≠ .starting ∧ s.watch = i :: rest) : s.entryAtHead i rest := h

theorem test_met_configApplied :
    let same := { fitted with applied := { fitted.applied with accept := [310] } }
    let taken := (withHalf goodHalf).setPos 5 fitted
    let sensed := (withHalf (goodHalf.set 5 23)).setPos 5 { fitted with
      applied := { fitted.applied with channel := some 23, address := 8 } }
    ((withHalf goodHalf).entryAtHead (watchOfPos 4) [] ∧ ((withHalf goodHalf).pos 4).seq = .off ∧
      examineHalf (withHalf [1, 0]).mem 4 = .disabled ∧
      examineHalf (withHalf (goodHalf.set 3 2)).mem 4 = .refused .badValue ∧
      examineHalf (withHalf goodHalf).mem 4 = .accepted goodConfig false) ∧
    ((refitting fitted goodHalf).entryAtHead (watchOfPos 4) [] ∧ ((refitting fitted goodHalf).pos 4).seq = .idle ∧
      fitted.applied.accept ≠ goodConfig.accept) ∧
    (examineHalf (refitting same goodHalf).mem 4 = .accepted goodConfig false ∧
      same.applied.line = goodConfig.line ∧ same.applied.address = goodConfig.address ∧
      same.applied.channel = goodConfig.channel ∧ same.applied.accept = goodConfig.accept) ∧
    ((taken.pos 5).enabled = true ∧ (taken.pos 5).applied.line = goodConfig.line ∧
      (taken.pos 5).applied.address = goodConfig.address) ∧
    (examineHalf sensed.mem 4 = .accepted { goodConfig with channel := some 23 } false ∧
      (sensed.pos 5).enabled = true ∧ (sensed.pos 5).applied.channel = some 23) := by
  refine ⟨⟨entry_of (by decide +kernel), ?_⟩, ⟨entry_of (by decide +kernel), ?_⟩, ?_, ?_, ?_⟩ <;> decide +kernel

theorem test_met_configBusy :
    (refitting { fitted with seq := .commit } goodHalf).entryAtHead (watchOfPos 4) [] ∧
    ((refitting { fitted with seq := .commit } goodHalf).pos 4).seq = .commit ∧
    (refitting { fitted with seq := .commit } goodHalf).mem.read (0x0102 + 128 * (4 : PosId).val) ≠ 0 ∧
    (refitting fitted [1, 0]).entryAtHead (watchOfPos 4) [] ∧
    (refitting fitted [1, 0]).mem.read (0x0102 + 128 * (4 : PosId).val) = 0 ∧
    ((refitting fitted [1, 0]).pos 4).enabled = true ∧ ((refitting fitted [1, 0]).pos 4).boundUid ≠ none :=
  ⟨entry_of (by decide +kernel), by decide +kernel, by decide +kernel, entry_of (by decide +kernel), by decide +kernel,
    by decide +kernel, by decide +kernel⟩

/-- A settings record with these bytes at the head of the watch queue. -/
def withSettings (bytes : List Byte) : State :=
  { base with mem := Memory.write [] settingsAddr bytes, watch := [watchSettings] }

theorem test_met_settings : (withSettings [1, 0, 4]).entryAtHead 24 [] ∧
    (after .settingsEditionTaken (withSettings [1, 0, 4])).settings.retryCount = 3 ∧
    (after .settingsEditionTaken (withSettings [1, 0, 4])).settings.presenceLimit = 1 ∧
    (after .settingsEditionTaken (withSettings [1, 0, 3, 0, 0x01, 0x09, 0x3D, 0])).settings.presenceLimit = 4000000 :=
  ⟨entry_of (by decide +kernel), by decide +kernel, by decide +kernel, by decide +kernel⟩

theorem test_met_misuse :
    (withOwner 7 .held 1 0x5A01).entryAtHead (watchOfSlot 7) [] ∧ (withOwner 7 .held 1 0x5A01).owner 7 = 0x5A01 ∧
    ((withOwner 7 .held 1 0x5A01).slot 7).mark = .held ∧ (withOwner 0 .held 1 0).owner 0 = 0x0000 ∧
    (withOwner 0 .held 1 0).entryAtHead (watchOfSlot 0) [] ∧
    (withOwner 0 .answered 1 0).entryAtHead (watchOfSlot 0) [] ∧ ((withOwner 0 .answered 1 0).slot 0).mark ≠ .held :=
  ⟨entry_of (by decide +kernel), by decide +kernel, by decide +kernel, by decide +kernel, entry_of (by decide +kernel),
    entry_of (by decide +kernel), by decide +kernel⟩

theorem test_met_cancel :
    (withOwner 7 .answered 1 0x5A04).entryAtHead (watchOfSlot 7) [] ∧ (withOwner 7 .answered 1 0x5A04).owner 7 = 0x5A04 ∧
    (withOwner 7 .host 0 0x5A04).entryAtHead (watchOfSlot 7) [] ∧
    ((withOwner 3 .held 0x14 0x5A04).entryAtHead (watchOfSlot 3) [] ∧ (withOwner 3 .held 0x14 0x5A04).owner 3 = 0x5A04 ∧
      ((withOwner 3 .held 0x14 0x5A04).slot 3).kind = 0x14 ∧
      ((withOwner 3 .held 0x14 0x5A04).slot 3).cancelHanded = false) :=
  ⟨entry_of (by decide +kernel), by decide +kernel, entry_of (by decide +kernel), entry_of (by decide +kernel),
    by decide +kernel, by decide +kernel, by decide +kernel⟩

/-- The work a CANCEL finds: a TAG_READ or TAG_WRITE queued or not, an INSPECT that waits, a key task that waits. -/
theorem test_met_cancelWork :
    (∃ r ∈ (({ withOwner 3 .held 0x02 0x5A04 with lineA := { idleLine with queue := [readRequest] } } : State).line .A).queue,
      r.requester = .task 3) ∧
    ((withOwner 3 .held 0x03 0x5A04).line .A).queue = [] ∧ ((withOwner 3 .held 0x03 0x5A04).line .B).queue = [] ∧
    (3 : SlotId) ∈ (({ withOwner 3 .held 0x01 0x5A04 with
      positions := (withPos { fitted with inspectWaiting := [3] }).positions } : State).pos 4).inspectWaiting ∧
    (∃ t ∈ ({ base.keys with queue := [{ slot := 3, op := .lock }] } : KeyStore).queue, t.slot = 3) :=
  ⟨⟨readRequest, by decide +kernel, by decide +kernel⟩, by decide +kernel, by decide +kernel, by decide +kernel,
    ⟨{ slot := 3, op := .lock }, List.mem_singleton_self _, rfl⟩⟩

theorem test_met_positionTasks :
    ((withTask 0 0x01 [24]).taskAtHead 0 0x01 [] ∧ (withTask 7 0x07 [23]).taskAtHead 7 0x07 []) ∧
    (byteAt ((withTask 0 0x01 [24]).slotPayload 0) 0).toNat = 24 ∧
    (byteAt ((withTask 7 0x07 [23]).slotPayload 7) 0).toNat = (23 : PosId).val ∧
    (((withTask 7 0x07 [23]).pos 23).enabled = false) ∧
    (fitted.enabled = true ∧ fitted.owed = false ∧ fitted.boundUid ≠ none ∧ fitted.unconfirmed = false) ∧
    ({ fitted with owed := true } : Position).owed = true :=
  ⟨⟨head_of (by decide +kernel), head_of (by decide +kernel)⟩, by decide +kernel⟩

theorem test_met_tagTasks :
    ((withTask 0 0x02 [2, 1, 0, 1]).taskAtHead 0 0x02 [] ∧ (withTask 0 0x02 [1, 31, 64, 8]).taskAtHead 0 0x02 [] ∧
      (withTask 0 0x03 [0, 1, 6]).taskAtHead 0 0x03 [] ∧ (withTask 0 0x03 [0, 1, 63]).taskAtHead 0 0x03 []) ∧
    (let b := (withTask 0 0x02 [1, 31, 64, 8]).slotPayload 0;
      (byteAt b 0).toNat = 1 ∧ (byteAt b 1).toNat = 31 ∧ (byteAt b 3).toNat = 8) ∧
    (let b := (withTask 0 0x02 [2, 1, 0, 1]).slotPayload 0; (byteAt b 0).toNat = 2) ∧
    (let b := (withTask 0 0x03 [0, 1, 6]).slotPayload 0; (byteAt b 2).toNat = 6) ∧
    (let b := (withTask 0 0x03 [0, 1, 63]).slotPayload 0; (byteAt b 2).toNat = 63) ∧
    (base.line .A).state ≠ .stuck ∧
    (({ withTask 0 0x02 [1, 31, 64, 8] with lineB := { idleLine with state := .stuck } } : State).line .B).state = .stuck :=
  ⟨⟨head_of (by decide +kernel), head_of (by decide +kernel), head_of (by decide +kernel), head_of (by decide +kernel)⟩,
    by decide +kernel⟩

theorem test_met_lineReset :
    ((withTask 0 0x04 [2]).taskAtHead 0 0x04 [] ∧ (withTask 0 0x04 [1]).taskAtHead 0 0x04 []) ∧
    (byteAt ((withTask 0 0x04 [2]).slotPayload 0) 0).toNat = 2 ∧
    (byteAt ((withTask 0 0x04 [1]).slotPayload 0) 0).toNat = 1 ∧
    ((withTask 0 0x04 [1]).line .B).state ≠ .stuck ∧ ((withTask 0 0x04 [1]).line .B).inFlight = none ∧
    ((withTask 0 0x04 [1]).line .B).queue = [] ∧
    (({ withTask 0 0x04 [1] with lineB := { idleLine with state := .stuck } } : State).line .B).state = .stuck :=
  ⟨⟨head_of (by decide +kernel), head_of (by decide +kernel)⟩, by decide +kernel⟩

theorem test_met_calLoad :
    ((withTask 0 0x05 [24]).taskAtHead 0 0x05 [] ∧ (withTask 0 0x05 [23, 0, 0, 0xF8]).taskAtHead 0 0x05 []) ∧
    (byteAt ((withTask 0 0x05 [24]).slotPayload 0) 0).toNat = 24 ∧
    (byteAt ((withTask 0 0x05 [23, 0, 0, 0xF8]).slotPayload 0) 0).toNat = (23 : ChannelId).val ∧
    (word16At ((withTask 0 0x05 [23, 0, 0, 0xF8]).slotPayload 0) 2).toInt = -2048 :=
  ⟨⟨head_of (by decide +kernel), head_of (by decide +kernel)⟩, by decide +kernel⟩

/-- A CALIBRATE of kind GAIN for channel 23 against 4 000 000 mΩ. -/
def calibrating : State := withTask 0 0x06 [23, 1, 0, 0, 0x00, 0x09, 0x3D, 0]

theorem test_met_calibrate :
    (calibrating.taskAtHead 0 0x06 [] ∧ (withTask 0 0x06 [23, 2]).taskAtHead 0 0x06 []) ∧
    (byteAt (calibrating.slotPayload 0) 0).toNat = (23 : ChannelId).val ∧
    (byteAt (calibrating.slotPayload 0) 1).toNat = 1 ∧ (word32At (calibrating.slotPayload 0) 4).toNat = 4000000 ∧
    (byteAt ((withTask 0 0x06 [23, 2]).slotPayload 0) 1).toNat = 2 ∧
    calibrating.meas.queue = [] ∧ calibrating.meas.inFlight = none ∧
    (let s := calibrating.setPos 5 { fitted with applied := { fitted.applied with channel := some 23 } };
      (s.pos 5).enabled = true ∧ (s.pos 5).applied.channel = some 23) ∧
    ({ channel := 1, kind := .calibrate 3 .offset 0 } : MeasRequest) ∈
      ({ calibrating.meas with queue := [{ channel := 1, kind := .calibrate 3 .offset 0 }] } : MeasUnit).queue :=
  ⟨⟨head_of (by decide +kernel), head_of (by decide +kernel)⟩, by decide +kernel⟩

/-- RETIRED_IMPORT of one UID at the end of the bulk area. -/
def importing (u : Word64) (retired : List Word64) : State :=
  let s := withTask 0 0x08 [0xF8, 0x3F, 1, 0]
  { s with mem := s.mem.write 0x3FF8 (bytes64 u), retired := retired }

theorem test_met_retired :
    ((withTask 0 0x08 [0, 0x20, 0, 0]).taskAtHead 0 0x08 [] ∧ (importing jaw []).taskAtHead 0 0x08 [] ∧
      (withTask 0 0x09 [0xFC, 0x3F]).taskAtHead 0 0x09 []) ∧
    (importing jaw []).mem.uids 0x3FF8 1 = [jaw] ∧ uidWellFormed jaw = true ∧ jaw ∉ (importing jaw []).retired ∧
    (importing 1 []).mem.uids 0x3FF8 1 = [1] ∧ uidWellFormed 1 = false ∧ jaw ∈ (importing jaw [jaw]).retired ∧
    (List.replicate 128 (0 : Word64)).length = 128 ∧ (∀ p, ((importing jaw []).pos p).verdict ≠ .barred) ∧
    (word16At ((withTask 0 0x09 [0xFC, 0x3F]).slotPayload 0) 0).toNat = 0x3FFC ∧
    (word16At ((importing jaw []).slotPayload 0) 0).toNat = 0x3FF8 :=
  ⟨⟨head_of (by decide +kernel), head_of (by decide +kernel), head_of (by decide +kernel)⟩, by decide +kernel⟩

/-- Position 4 holds the jaw BARRED, and a task stands at the head. -/
def barring (kind : Word16) (payload : List Byte) : State :=
  { withTask 0 kind payload with
    positions := (withPos { fitted with verdict := .barred }).positions, identity := [jawRecord], retired := [jaw] }

theorem test_met_released :
    ((barring 0x0B [4]).taskAtHead 0 0x0B [] ∧ (barring 0x0B [24]).taskAtHead 0 0x0B [] ∧
      (barring 0x0A (bytes64 jaw)).taskAtHead 0 0x0A []) ∧
    (byteAt ((barring 0x0B [24]).slotPayload 0) 0).toNat = 24 ∧
    (byteAt ((barring 0x0B [4]).slotPayload 0) 0).toNat = (4 : PosId).val ∧
    ((barring 0x0B [4]).pos 4).verdict = .barred ∧ ((barring 0x0B [4]).pos 4).boundUid = some jaw ∧
    (barring 0x0B [4]).record jaw = some jawRecord ∧ jaw ∈ (barring 0x0B [4]).retired ∧
    ((barring 0x0B [4]).pos 0).verdict ≠ .barred ∧
    word64At ((barring 0x0A (bytes64 jaw)).slotPayload 0) 0 = jaw ∧ uidWellFormed jaw = true ∧
    (∀ q, ((barring 0x0A (bytes64 jaw)).pos q).verdict = .barred → q = 4) ∧ uidWellFormed 1 = false ∧
    uidWellFormed 0 = true ∧ (0 : Word64) ∉ (barring 0x0A []).retired :=
  ⟨⟨head_of (by decide +kernel), head_of (by decide +kernel), head_of (by decide +kernel)⟩, by decide +kernel⟩

theorem test_met_rulesLoad :
    ((withTask 0 0x0C [1, 4]).taskAtHead 0 0x0C [] ∧ (withTask 0 0x0C []).taskAtHead 0 0x0C []) ∧
    (let b := (withTask 0 0x0C [1, 4]).slotPayload 0; ruleFault b 0 = some 1) ∧
    (let b := (withTask 0 0x0C (List.replicate 98 0 ++ [1, 3, 6, 1, 0, 0, 1])).slotPayload 0;
      ruleFault b 7 = some 4 ∧ ∀ j, j < 7 → ruleFault b j = none) ∧
    (let b := (withTask 0 0x0C []).slotPayload 0; ∀ i, i < 8 → ruleFault b i = none) :=
  ⟨⟨head_of (by decide +kernel), head_of (by decide +kernel)⟩, by decide +kernel⟩

theorem test_met_holds :
    ((withTask 0 0x0D [0xFF, 0]).taskAtHead 0 0x0D [] ∧ (withTask 0 0x0D [0, 1]).taskAtHead 0 0x0D [] ∧
      (withTask 0 0x0E [0xFF, 0]).taskAtHead 0 0x0E [] ∧ (withTask 0 0x0E [0, 1]).taskAtHead 0 0x0E []) ∧
    (word16At ((withTask 0 0x0D [0xFF, 0]).slotPayload 0) 0).toNat = 255 ∧
    (word16At ((withTask 0 0x0E [0, 1]).slotPayload 0) 0).toNat = 256 :=
  ⟨⟨head_of (by decide +kernel), head_of (by decide +kernel), head_of (by decide +kernel), head_of (by decide +kernel)⟩,
    by decide +kernel⟩

/-- A class record of code `n`. -/
def aClass (n : Nat) : ClassRecord :=
  { code := BitVec.ofNat 16 n, keySlot := 1, mode := .none, tau := 1000, alpha := 0, beta := 0, bandLo := 7500,
    bandHi := 12500, trip := 1, recover := 0, forgive := 1, latch := 1 }

theorem test_met_classLoad :
    ((withTask 0 0x0F [1, 0, 15, 1]).taskAtHead 0 0x0F [] ∧ (withTask 0 0x0F [1, 0, 16, 1]).taskAtHead 0 0x0F []) ∧
    classFault ((withTask 0 0x0F [1, 0, 15, 1]).slotPayload 0) = none ∧
    classFault ((withTask 0 0x0F []).slotPayload 0) = some 1 ∧
    classFault ((withTask 0 0x0F [1, 0, 16, 1]).slotPayload 0) = some 2 ∧
    classFault ((withTask 0 0x0F [1, 0, 1, 2]).slotPayload 0) = some 3 ∧
    (∀ d ∈ ((List.range 16).map (fun i => aClass (i + 2))), d.code ≠ word16At ((withTask 0 0x0F [1, 0, 15, 1]).slotPayload 0) 0) ∧
    (withTask 0 0x0F [1, 0, 15, 1]).classes.length < 16 :=
  ⟨⟨head_of (by decide +kernel), head_of (by decide +kernel)⟩, by decide +kernel⟩

theorem test_met_classDrop :
    ((withTask 0 0x10 [5, 0]).taskAtHead 0 0x10 [] ∧ (withTask 0 0x10 [0, 0]).taskAtHead 0 0x10 []) ∧
    word16At ((withTask 0 0x10 [5, 0]).slotPayload 0) 0 = (aClass 5).code ∧ (aClass 5).code ≠ 0 ∧
    word16At ((withTask 0 0x10 [0, 0]).slotPayload 0) 0 = 0 ∧ (withTask 0 0x10 [5, 0]).classes = [] :=
  ⟨⟨head_of (by decide +kernel), head_of (by decide +kernel)⟩, by decide +kernel⟩

theorem test_met_keyTasks :
    ((withTask 0 0x11 [16]).taskAtHead 0 0x11 [] ∧ (withTask 0 0x12 [15]).taskAtHead 0 0x12 [] ∧
      (withTask 0 0x13 []).taskAtHead 0 0x13 [] ∧ (withTask 0 0x14 []).taskAtHead 0 0x14 []) ∧
    (byteAt ((withTask 0 0x11 [16]).slotPayload 0) 0).toNat = 16 ∧
    (byteAt ((withTask 0 0x12 [15]).slotPayload 0) 0).toNat = (15 : KeySlotId).val :=
  ⟨⟨head_of (by decide +kernel), head_of (by decide +kernel), head_of (by decide +kernel), head_of (by decide +kernel)⟩,
    by decide +kernel⟩

theorem test_met_keyServe :
    let q : KeyStore := { base.keys with queue := [{ slot := 0, op := .lock }] }
    let locked : KeyStore := { q with slots := q.slots.set 0 (.valid 7), locked := true, attempts := 0 }
    let writing : KeyStore := { q with writing := some { target := 15, key := 7, task := none } }
    base.power = .on ∧ q.writing = none ∧ q.queue = { slot := 0, op := .lock } :: [] ∧ q.locked = false ∧
      ¬ (q.slots[0]).isValid = true ∧ locked.slots[0] = .valid 7 ∧ locked.locked = true ∧ locked.attempts = 0 ∧
      writing.writing = some { target := 15, key := 7, task := none } := by decide +kernel

theorem test_met_calls :
    let c := { idleLine with state := .calling, activity := .call, inFlight := some (reading .live 0) }
    c.inFlight = some (reading .live 0) ∧ (reading .live 0).request.address.toNat ≤ 31 ∧
      LineCtl.reset.state = .calling ∧ LineCtl.reset.activity = .wake 0 false false ∧ idleLine.state ≠ .calling := by
  decide +kernel

theorem test_met_transaction :
    let s := withLine { idleLine with queue := [readRequest] }
    let t := withLine { idleLine with state := .awaiting, inFlight := some (reading .live 0) }
    s.power = .on ∧ (s.line .A).state = .idle ∧ (s.line .A).queue = readRequest :: [] ∧ (t.line .A).state = .awaiting ∧
      wfPace ⟨4000, 4000, 4000, 4000, true⟩ = true ∧
      2 * 2604 * (125 * 16000) ≤ 2 * (2 * 416667 * 10000) + 125 * 16000 ∧ measurePace ⟨4000, 4000, 4000, 4000, true⟩ = .malformed ∧
      measurePace ⟨1667, 1667, 1667, 1667, true⟩ = .measured 6668 9998 := by
  decide +kernel

theorem test_met_received : replyData (.readBlocks 0 1) 0 [1, 2, 3, 4, 5] ∧ replyData (.readBlocks 0 8) 6 [7, 2, 3, 4, 5,
      1, 1, 1, 1, 1, 1, 1, 1, 1, 1, 1, 1, 1, 1, 1, 1, 1, 1, 1, 1, 1, 1, 1, 1] ∧ replyData (.challenge 0) 3 [] ∧
    (8 * 2604 ≤ 3 * 6944 ∧ 3 * 6944 < 8 * 2605) ∧
    receive (.readBlocks 0 1) 6944 [] [charEdge 2604 2, charEdge 2604 (checkByte [2])] = .reply 2 [] := by
  refine ⟨⟨1, [2, 3, 4, 5], rfl, by decide, by decide, by decide⟩, ⟨7, _, rfl, by decide, by decide, by decide⟩, rfl, ?_⟩
  decide +kernel

theorem test_met_attempts :
    let c := { idleLine with state := .calling, activity := .call, inFlight := some (reading .live 0) }
    let a := { idleLine with state := .awaiting, activity := .call, inFlight := some (reading .live 0) }
    let r := { a with state := .receiving, pace := .measured 6944 9601 }
    c.sendingBits[0]? = some false ∧ c.sendingBits[74]? = some true ∧ LineCtl.reset.sendingBits[39]? = some false ∧
      a.state = .awaiting ∧ r.state = .receiving ∧ receive (.readBlocks 0 1) 6944 [] [] = .error .length ∧
      receive (.readBlocks 0 1) 6944 [] [charEdge 0 2, charEdge 0 0] = .error .check := by decide +kernel

theorem test_met_replyCompletes :
    let r := { idleLine with
      state := .receiving, activity := .call, pace := .measured 6944 9601, inFlight := some (reading .live 0) }
    (withLine r).power = .on ∧ ((withLine r).line .A).state = .receiving ∧
      ((withLine r).line .A).inFlight = some (reading .live 0) ∧ ((withLine r).line .A).pace = .measured 6944 9601 ∧
      receive (reading .live 0).request.command 6944 [] [charEdge 0 2, charEdge 0 (checkByte [2])] = .reply 2 [] ∧
      receive (reading .cancelled 0).request.command 6944 [] ([0, 1, 0, 0, 0, 0xFF, 0xFF].map (charEdge 0)) =
        .error .check ∧
      receive (reading .live 0).request.command 6944 [] (([0, 1, 0, 0, 0, 0] ++ [checkByte [0, 1, 0, 0, 0, 0]]).map
        (charEdge 0)) = .reply 0 [1, 0, 0, 0, 0] := by decide +kernel

theorem test_met_restEnds :
    let r := { idleLine with state := .resting, activity := .call, inFlight := some (reading .live 2) }
    let w := { idleLine with state := .resting, activity := .wake 2 true true }
    (withLine r).power = .on ∧ ((withLine r).line .A).state = .resting ∧
      ((withLine r).line .A).inFlight = some (reading .live 2) ∧
      ¬ ((reading .live 2).disposition = .live ∧ (reading .live 2).retries < (withLine r).settings.retryCount.toNat) ∧
      (reading .live 1).retries < (withLine r).settings.retryCount.toNat ∧ (reading .live 2).lastError = some .noReply ∧
      ((withLine w).line .A).activity = .wake 2 true true ∧ w.resetTasks = [] := by decide +kernel

theorem test_met_quietStuck :
    let s := { base with settings := { base.settings with quiet := true } }
    (s.line .B).state = .idle ∧ (s.line .B).queue = [] ∧ (∀ p, (s.pos p).enabled = false) ∧
      s.settings.quiet = true ∧ (s.line .B).heldBack = false ∧ s.power = .on ∧ (s.line .B).state ≠ .stuck ∧
      LineCtl.reset.state = .calling ∧ ((withLine { idleLine with state := .stuck }).line .A).state = .stuck := by
  decide +kernel

/-- A unit that samples channel 23 for this request. -/
def sampling (k : MeasKind) (d : Disposition) : State :=
  { base with meas := { base.meas with
      state := .sampling, inFlight := some { request := { channel := 23, kind := k }, disposition := d } } }

theorem test_met_measurement :
    let s := sampling (.calibrate 3 .gain 50000) .live
    let q := { base with meas := { base.meas with queue := [{ channel := 0, kind := .presence 0 }] } }
    (q.meas.state = .idle ∧ q.meas.queue = { channel := 0, kind := .presence 0 } :: []) ∧
    (s.power = .on ∧ s.meas.state = .sampling ∧ s.meas.waiting = [] ∧ s.channelInUse 23 = false ∧
      s.meas.inFlight = some { request := { channel := 23, kind := .calibrate 3 .gain 50000 }, disposition := .live }) ∧
    (sampling (.presence 0) .withdrawn).meas.inFlight.map (fun f => f.disposition) = some .withdrawn ∧
    roundInt ((summing 266500).map BitVec.toInt).sum 16 = 16656 ∧ roundNat (50000 * 65536) 16656 = 196734 := by
  decide +kernel

/-- The roundings that the arithmetic names exist. -/
theorem test_met_rounded : isRoundedInt 192740 16 12046 ∧ isRoundedInt (-24) 16 (-2) ∧
    isRounded (12000 * 196608) 65536 36000 ∧ isRounded (36000 * 2000000) 2038400 35322 ∧
    isRounded (34800 * 1012070) 1000000 35220 := by
  unfold isRoundedInt isRounded; decide

theorem test_met_timers :
    ((withPos fitted).pos 4).timer = .running 5 ∧ ((withPos fitted).pos 4).seq = .idle ∧
      ((withPos { fitted with seq := .cycle }).pos 4).seq = .cycle ∧ (base.pos 0).timer ≠ .running 5 ∧
      base.inhibitN = true ∧ (base.pos 0).pulseDirty = false ∧ base.blockDirty = false ∧
      ((withPos { fitted with pulseDirty := true }).pos 4).pulseDirty = true ∧ base.touchBlock.blockDirty = true := by
  decide +kernel

theorem test_met_pulses : base.power = .on ∧ base.levels.getLsbD (7 : InputId).val = false ∧
    (after (.cyclePulse 7) base).levels.getLsbD (7 : InputId).val = true := by decide +kernel

theorem test_met_sightings :
    let full := (List.range 48).map (fun i => { jawRecord with uid := BitVec.ofNat 64 i, bound := none })
    (withJaw fitted).record jaw = some jawRecord ∧ jawRecord.bound = some 4 ∧ (4 : PosId) ≠ 5 ∧
      (withJaw fitted).record 0 = none ∧ full.length = 48 ∧ ({ base with identity := full } : State).record jaw = none ∧
      full.head? = some { jawRecord with uid := 0, bound := none } ∧ base.retired = [] ∧
      (List.replicate 128 (0 : Word64)).length = 128 ∧ jaw ∉ List.replicate 128 (0 : Word64) := by decide +kernel

theorem test_met_verdicts :
    let r (f : Word16) (k : ResultKind) : Result :=
      { kind := k, concerned := some jaw, findings := f, reason := .none, limits := Limits.noClass }
    let s := withJaw fitted
    (s.pos 4).verdict ≠ .barred ∧ (r 4 .findings).findings &&& 0x0004 ≠ 0 ∧ (r 1 .findings).findings &&& 0x00FF ≠ 0 ∧
      (s.pos 4).boundUid = some jaw ∧ s.record jaw = some jawRecord ∧ (r 0x0200 .findings).findings &&& 0x00FF = 0 ∧
      1 ≤ (satInc (s.pos 4).doubt).toNat ∧ (s.pos 4).verdict = .cleared ∧
      (satInc (s.pos 4).clean).toNat % (r 0 .clean).limits.forgive ≠ 0 := by decide +kernel

/-- A commit of 40 on base 100 runs at position 4. -/
def committing (confirming : Bool) : State :=
  withJaw { fitted with
    seq := .commit, inFlight := 40
    commit := some { base := 100, confirming := confirming, retries := 0, tasks := [3] } }

theorem test_met_commits :
    ((committing false).pos 4).seq = .commit ∧ ((committing false).pos 4).boundUid = some jaw ∧
      (committing false).record jaw = some jawRecord ∧ (word32At (bytes32 140) 0).toNat = 100 + 40 ∧
      ((committing false).line .A).state ≠ .stuck ∧ byteAt (1 :: bytes32 100) 0 = 1 ∧
      word32At (1 :: bytes32 100) 1 = 100 ∧
      ((committing true).pos 4).commit = some { base := 100, confirming := true, retries := 0, tasks := [3] } := by
  decide +kernel

/-- A cycle in this stage at position 4, with the jaw's class requiring a signature. -/
def cycling (stage : Stage) : CycleContext :=
  { CycleContext.start [] with
    stage := stage, n := 7, blocks := bytes64 jaw ++ leBytes 4 310 ++ leBytes 4 34800 ++ List.replicate 12 0
    classCopy := some { aClass 310 with mode := .required } }

theorem test_met_cycles :
    let s := (withJaw { fitted with seq := .cycle, cycle := some (cycling .challenge) })
    let x := { fitted with seq := .cycle, cycle := some (cycling .identify), uid := .none, verdict := .vacant }
    (s.pos 4).seq = .cycle ∧ (s.pos 4).cycle = some (cycling .challenge) ∧ (s.pos 4).boundUid ≠ none ∧
      (s.pos 4).missed = 0 ∧ (cycling .identify).stage = .identify ∧ (cycling .challenge).stage = .challenge ∧
      ¬ (s.keys.slots[(1 : KeySlotId).val]).isValid = true ∧ tagFactory (cycling .challenge).blocks = 34800 ∧
      ((withPos x).pos 4).boundUid = none ∧ ((withPos x).pos 4).verdict ≠ .barred := by decide +kernel

theorem test_met_findings :
    formatFindings (cycling .checks) = 0 ∧ tagUid (cycling .checks).blocks = jaw ∧
      (0x136 : Word16) = tagClass (cycling .checks).blocks ∧ (0x136 : Word16) ∉ fitted.applied.accept ∧
      uidWellFormed 1 = false ∧ (withJaw { fitted with unconfirmed := true }).record jaw = some jawRecord ∧
      ((withJaw { fitted with unconfirmed := true }).pos 4).unconfirmed = true := by decide +kernel

/-! ### Clauses of widened statements -/

/-- R43: position 4 on a STUCK line. -/
def stuckAt (x : Position) : State := { withJaw x with lineA := { idleLine with state := .stuck } }

theorem test_met_stuckRequests :
    let owed := stuckAt { fitted with owed := true }
    let due := stuckAt { fitted with pendingUse := 1 }
    let commit := stuckAt { fitted with
      seq := .commit, inFlight := 1, commit := some { base := 100, confirming := false, retries := 2, tasks := [] } }
    (base.line .B).state ≠ .stuck ∧ (owed.line (owed.pos 4).applied.line).state = .stuck ∧ (owed.pos 4).seq = .idle ∧
      (owed.pos 4).editionWaiting = false ∧ owed.device = .running ∧ (owed.pos 4).owed = true ∧
      (due.pos 4).owed = false ∧ (due.pos 4).boundUid ≠ none ∧ (due.pos 4).unconfirmed = false ∧
      (due.pos 4).applied.threshold.toNat ≤ (due.pos 4).pendingUse.toNat ∧ (due.pos 4).pendingUse ≠ 0 ∧
      (commit.pos 4).seq = .commit := by decide +kernel

/-- R43, R54, R107: the cycle ends inconclusive LINK, the commit UNCONFIRMED. -/
theorem test_stuckRequests :
    let t := (stuckAt { fitted with owed := true }).choose 4
    let u := (stuckAt { fitted with pendingUse := 1 }).choose 4
    ((t.pos 4).seq, (t.pos 4).reason, (t.pos 4).lastLineError, (t.pos 4).cyclesCompleted) =
      (.idle, .link, some .stuck, 1) ∧
    ((u.pos 4).seq, (u.pos 4).unconfirmed, (u.pos 4).inFlight, (u.pos 4).lastLineError) =
      (.idle, true, 1, some .stuck) := by decide +kernel

theorem test_met_stateChangePosted : (base.blockBytes.length, fitted.halfBytes.length) = (128, 64) ∧
    base.permits.permitWord ≠ { base with permits := { base.permits with groupEnable := 1 } }.finish.permits.permitWord := by
  decide +kernel

/-- A CALIBRATE request of task slot `k` for channel `c`. -/
def calibration (k : SlotId) (c : ChannelId) : MeasRequest := { channel := c, kind := .calibrate k .offset 0 }

/-- A CANCEL of the CALIBRATE of slot 3, with this measurement unit. -/
def cancelling (u : MeasUnit) : State := { withOwner 3 .held 0x06 0x5A04 with meas := u }

theorem test_met_cancelCalibrate :
    (cancelling base.meas).entryAtHead (watchOfSlot 3) [] ∧ (cancelling base.meas).owner 3 = 0x5A04 ∧
    ((cancelling base.meas).slot 3).mark = .held ∧ ((cancelling base.meas).slot 3).kind = 0x06 ∧
    (∃ r ∈ ({ base.meas with waiting := [calibration 3 1] } : MeasUnit).waiting, r.slot = some 3) ∧
    (∃ r ∈ ({ base.meas with queue := [calibration 3 1] } : MeasUnit).queue, r.slot = some 3) ∧
    (∀ r ∈ ({ base.meas with waiting := [calibration 5 2] } : MeasUnit).waiting, ¬ r.slot = some 3) ∧
    (∀ p : PosId, (base.pos p).enabled = true → (base.pos p).applied.channel ≠ some 2) ∧ base.meas.inFlight = none :=
  ⟨entry_of (by decide +kernel), by decide +kernel, by decide +kernel, by decide +kernel,
    ⟨calibration 3 1, List.mem_singleton_self _, rfl⟩, ⟨calibration 3 1, List.mem_singleton_self _, rfl⟩,
    by decide +kernel⟩

/-- R88: out of the queue, and the oldest waiting task moves up; in flight, the record stays and the task waits. -/
theorem test_cancelCalibrate :
    let t := after .cancel (cancelling { base.meas with queue := [calibration 3 1], waiting := [calibration 5 2] })
    let u := after .cancel (cancelling { base.meas with
      state := .sampling, inFlight := some { request := calibration 3 1, disposition := .live } })
    (t.meas.queue, t.meas.waiting, (t.slot 3).mark) = ([calibration 5 2], [], .answered) ∧
      (u.meas.inFlight.map (·.disposition), u.owner 3) = (some .cancelled, ownerCancel) := by decide +kernel

theorem test_met_cancelCommit :
    (withOwner 3 .held 0x07 0x5A04).entryAtHead (watchOfSlot 3) [] ∧
    ((withOwner 3 .held 0x07 0x5A04).slot 3).kind = 0x07 ∧
    (3 : SlotId) ∈ (({ withOwner 3 .held 0x07 0x5A04 with
      positions := (withPos { fitted with commitWaiting := [3] }).positions } : State).pos 4).commitWaiting ∧
    (∀ p, (3 : SlotId) ∉ ((withOwner 3 .held 0x07 0x5A04).pos p).commitWaiting) ∧
    (∀ p, (3 : SlotId) ∉ ((withOwner 3 .held 0x01 0x5A04).pos p).inspectWaiting) ∧
    (∀ t ∈ (withOwner 3 .held 0x11 0x5A04).keys.queue, t.slot ≠ 3) :=
  ⟨entry_of (by decide +kernel), by decide +kernel, by decide +kernel, by decide +kernel, by decide +kernel,
    by decide +kernel⟩

/-- R29, R48: a transaction that RESTART withdrew stays withdrawn when a later task of its slot is cancelled. -/
theorem test_cancelRead :
    let x (d : Disposition) : LineCtl := { idleLine with state := .awaiting, activity := .call, inFlight := some (reading d 0) }
    let t := after .cancel { withOwner 3 .held 0x02 0x5A04 with lineA := x .withdrawn, lineB := x .live }
    (t.line .A).inFlight = some (reading .withdrawn 0) ∧ (t.line .B).inFlight = some (reading .cancelled 0) ∧
      t.owner 3 = ownerCancel := by decide +kernel

/-- Position 4 holds the jaw BARRED in CHECKS of a cycle, and a RELEASE of it stands at the head. -/
def releasing : State :=
  (barring 0x0B [4]).setPos 4 { fitted with verdict := .barred, seq := .cycle, cycle := some (cycling .checks) }

/-- R147: both orders leave the position BARRED with its UID on the list. -/
theorem test_met_releaseInCycle :
    releasing.taskAtHead 0 0x0B [] ∧
    ((releasing.pos 4).cycle = some (cycling .checks) ∧ formatFindings (cycling .checks) = 0 ∧
      tagUid (cycling .checks).blocks = jaw ∧ (0 : SlotId) ∉ (cycling .checks).tasks ∧
      (releasing.pos 4).verdict = .barred ∧ (releasing.pos 4).boundUid = some jaw ∧
      releasing.record jaw = some jawRecord ∧ jawRecord.bound = some 4 ∧ jaw ∈ releasing.retired ∧
      releasing.retired.length ≤ 128 ∧ (releasing.removalAtHead 4 jaw).isSome = true) :=
  ⟨head_of (by decide +kernel), by decide +kernel⟩

/-- R147: the RELEASE before the result. -/
theorem test_releaseInCycle :
    let t := (releasing.removalAtHead 4 jaw).getD base
    let u := t.endFindings 4 fRetired Limits.noClass
    (t.owner 0, (t.pos 4).verdict, t.retired) = (ownerDone, .arriving, []) ∧
      ((u.pos 4).verdict, u.retired, (u.pos 4).owed, (u.record jaw).map (·.rejects)) =
        (.barred, [jaw], true, some 0) := by decide +kernel

/-- R163: a load into a full table changes nothing in it. -/
theorem test_met_tableFull :
    let s := { withTask 0 0x0F [1, 0, 15, 1] with classes := (List.range 16).map (fun i => aClass (i + 2)) }
    let t := after .classLoad s
    s.classes.length = 16 ∧ t.classes = s.classes ∧ (t.slot 0).mark = .answered ∧ t.free = 1 := by decide +kernel

/-- R121, R125: an import that adds a UID posts the device block. -/
theorem test_importPosts :
    let t := after .retiredImport (importing jaw [])
    t.retired = [jaw] ∧ t.blockEdition = 2 ∧ (after .retiredImport (importing jaw [jaw])).blockEdition = 0 := by decide +kernel

/-- R49: two LINE_RESET tasks end together. -/
theorem test_met_twoResets :
    let w (k : SlotId) : ResetWait := { slot := k, found := .idle, failed := false, queued := 0 }
    let s := withLine { idleLine with state := .resting, activity := .wake 0 false false, resetTasks := [w 1, w 2] }
    let t := after (.lineRestEnd .A) s
    (s.line .A).state = .resting ∧ (s.line .A).activity = .wake 0 false false ∧ (s.line .A).resetTasks ≠ [] ∧
      (t.mem.word 0x1102, t.mem.word 0x1202, t.mem.word 0x1182, (t.line .A).resetTasks) = (0x0000, 0x0000, 0, []) ∧
      (t.slot 1).mark = .host ∧ t.blockEdition = 2 := by decide +kernel

/-- R71: an element below the limit is SILENT; none, or SATURATED, is ABSENT. -/
theorem test_presence :
    let s := withPos { fitted with seq := .cycle, uid := .none, verdict := .vacant, cycle := some (cycling .presence) }
    let t (o : PresenceOutcome) := (s.presenceOutcome 4 o).pos 4
    presenceStages (summing 160) { offset := 0, gain := 65536 } = ⟨false, some 10, some 10⟩ ∧
      ((t ⟨false, some 10, some 10⟩).verdict, (t ⟨false, some 10, some 10⟩).findings,
        (t ⟨false, some 10, some 10⟩).rMeas) = (.doubtful, 0x0800, 10) ∧
      s.settings.presenceLimit = 2000000 ∧ (t ⟨false, some 10, some 2000000⟩).verdict = .vacant ∧
      (t ⟨true, none, none⟩).verdict = .vacant := by decide +kernel

/-- R78: a device block posted while the outcome is handed shows SAMPLING; the unit is IDLE after the hand-over. -/
theorem test_idleAfterHandOver :
    let m := { base.meas with
      state := .sampling, inFlight := some { request := { channel := 23, kind := .presence 4 }, disposition := .live } }
    let x := { fitted with seq := .cycle, verdict := .vacant, cycle := some (cycling .presence) }
    let s := { withPos x with meas := m, permits := { base.permits with groupEnable := 0x80 } }
    let t := after (.samplingEnd (Vector.replicate 16 100)) s
    (t.blockEdition, t.mem.read 0x30, t.meas.state, t.excitation) = (2, 2, .idle, none) := by decide +kernel

/-- R66, R68, R69: the outcome of a signature measurement ends the cycle CLEAN, or with its finding. -/
theorem test_signatureOutcome :
    let s := withJaw { fitted with seq := .cycle, verdict := .arriving, cycle := some (cycling .signature) }
    let clean := s.signatureOutcome 4 ⟨0, some 36000, some 35322, some 35220, some 2896, some 360⟩
    let off := s.signatureOutcome 4 ⟨0x0200, some 36741, some 36066, some 34800, some 36379, some 352⟩
    ((clean.pos 4).verdict, (clean.pos 4).findings, (clean.pos 4).r20, (clean.pos 4).cyclesCompleted) =
      (.cleared, 0, 35322, 1) ∧ (off.pos 4).findings = 0x0200 ∧ (off.pos 4).deviation = 36379 := by decide +kernel

/-- R76: the INSPECT attached to a cycle carries its outcome. -/
theorem test_met_handOff :
    let s := withJaw { fitted with seq := .cycle, verdict := .arriving, cycleNumber := 9,
                                   cycle := some { cycling .signature with tasks := [2] } }
    let t := s.signatureOutcome 4 ⟨0x0200, none, none, none, none, none⟩
    t.mem.word 0x1282 = 0 ∧ t.mem.bytes 0x1284 12 = [4, 1, 1, 6, 9, 0, 0, 0, 0, 2, 0, 1] ∧ (t.pos 4).cycle = none := by
  decide +kernel

/-- R111, R142: a commit that carries K to the limit turns CLEARED into EXPIRED. -/
theorem test_commitWear :
    let x := { (committing false).pos 4 with usageLimit := 120 }
    let t := (withJaw x).positionLine 4 (.reply 0 (bytes32 140) 0 0)
    ((t.pos 4).wear, (t.pos 4).verdict, t.known jaw) = (true, .expired, 140) := by decide +kernel

/-- Position 4 in CHECKS with the jaw, its class accepted, on file and its key VALID. -/
def checking (x : Position) (r : IdentityRecord) : State :=
  { withPos { x with applied := { x.applied with accept := [310] }, seq := .cycle,
                     cycle := some { cycling .checks with ratio := 10000, blocks := (cycling .checks).blocks.set 20 100 } } with
    identity := [r], classes := [aClass 310], keys := { base.keys with slots := base.keys.slots.set 1 (.valid 7) } }

/-- R59, R61, R62, R63: DUPLICATE at the contester and at the binding, REGRESSION, CLOCK, NO_CLASS, NO_KEY, and on to
CHALLENGE. -/
theorem test_met_checks :
    let ok := checking fitted jawRecord
    let state (s : State) : SeqState × Word16 × Reason := let x := (s.checks 4).pos 4; (x.seq, x.findings, x.reason)
    let context (s : State) : Option (Stage × Word16) := (((s.checks 4).pos 4).cycle).map (fun c => (c.stage, c.findings))
    formatFindings ((ok.context 4)) = 0 ∧ (tagCounter (ok.context 4).blocks).toNat = 100 ∧
    context ok = some (.challenge, 0) ∧
    context { ok with classes := [{ aClass 310 with bandLo := 10001 }] } = some (.challenge, 0x0100) ∧
    state (checking fitted { jawRecord with bound := some 5 }) = (.idle, 0x0008, .none) ∧
    state (checking { fitted with uid := .none } { jawRecord with bound := some 5 }) = (.idle, 0x0008, .none) ∧
    state (checking fitted { jawRecord with contest := [6] }) = (.idle, 0x0008, .none) ∧
    state (checking fitted { jawRecord with known := 101 }) = (.idle, 0x0040, .none) ∧
    state (checking { fitted with uid := .none } { jawRecord with bound := none, known := 101 }) = (.idle, 0x0040, .none) ∧
    state (checking { fitted with unconfirmed := true, inFlight := 7 } { jawRecord with known := 90 }) =
      (.idle, 0x0020, .none) ∧
    state { ok with classes := [] } = (.idle, 0, .noClass) ∧ state { ok with keys := base.keys } = (.idle, 0, .noKey) ∧
    state { ok with retired := [jaw] } = (.idle, 0x0004, .none) ∧
    (checking fitted jawRecord).record jaw = some jawRecord ∧ (ok.keys.slots[(1 : KeySlotId).val]).isValid = true := by
  decide +kernel

/-- R13, R145, R156: the permits are told of the departure before the cycle goes on. -/
theorem test_departureAllows :
    let x := { fitted with verdict := .rejected, applied := { fitted.applied with vacancyAllows := true } }
    let s := { withJaw x with permits := { base.permits with groupEnable := 1 } }
    s.settlePermits.permits.permitWord = 0 ∧ (s.settlePermits.endBinding 4).permits.permitWord = 1 := by decide +kernel

/-! ### Clauses of the second widening -/

/-- R174, R175: HOST_WORD_WRITE to a watched word (log 22). -/
theorem test_met_wordOfWatched : 2 * (0x80 : BitVec 13).toNat = watchedAddr 0 ∧
    (after (.hostWordWrite 0x80 5) base).watch = [0] ∧ (after (.watchedWordWrite 0 5) base).watch = [0] := by
  decide +kernel

/-- R1, R2: a refused half at a position in OFF, and a conflict. -/
theorem test_met_halfRefused :
    let bad := withHalf (goodHalf.set 4 32)
    let taken := (withHalf goodHalf).setPos 5 fitted
    bad.entryAtHead (watchOfPos 4) [] ∧ (bad.pos 4).seq = .off ∧ examineHalf bad.mem 4 = .refused .badAddress ∧
    taken.entryAtHead (watchOfPos 4) [] ∧ (taken.pos 4).seq = .off ∧
    examineHalf taken.mem 4 = .accepted goodConfig false ∧ (5 : PosId) ≠ 4 ∧ (taken.pos 5).enabled = true ∧
    (taken.pos 5).applied.line = goodConfig.line ∧ (taken.pos 5).applied.address = goodConfig.address ∧
    ((after .configEditionTaken taken).pos 4).refusal = .addressInUse :=
  ⟨entry_of (by decide +kernel), by decide +kernel, by decide +kernel, entry_of (by decide +kernel), by decide +kernel⟩

/-- R74, R76, R44: disabling in a cycle ends its INSPECT and the one that waits, and the line left sends QUIET. -/
theorem test_met_disableInspects :
    let s := { refitting { fitted with
      seq := .cycle, cycleNumber := 9, cycle := some { cycling .identify with tasks := [1] }, inspectWaiting := [2] } [1, 0]
      with settings := { base.settings with quiet := true } }
    let t := after .configEditionTaken s
    s.entryAtHead (watchOfPos 4) [] ∧ (s.pos 4).enabled = true ∧ s.mem.read (0x0102 + 128 * (4 : PosId).val) = 0 ∧
    (t.mem.word 0x1182, t.mem.bytes 0x1184 12) = (0, [4, 1, 0, 0, 9, 0, 0, 0, 0, 0, 5, 0]) ∧
    (t.mem.word 0x1282, t.mem.bytes 0x1284 12) = (0, [4, 0, 0, 0, 9, 0, 0, 0, 0, 0, 5, 0]) ∧
    ((t.line .A).activity, (t.line .B).activity) = (.quiet 0, .none) :=
  ⟨entry_of (by decide +kernel), by decide +kernel⟩

/-- R103: disabling in a commit ends its USAGE_COMMIT and the one that waits. -/
theorem test_met_disableCommits :
    let s := refitting { fitted with
      seq := .commit, inFlight := 40, commitWaiting := [2],
      commit := some { base := 100, confirming := false, retries := 0, tasks := [1] } } [1, 0]
    let t := after .configEditionTaken s
    s.entryAtHead (watchOfPos 4) [] ∧ (s.pos 4).commit.isSome = true ∧ (s.pos 4).commitWaiting ≠ [] ∧
    t.free = 2 ∧ (t.pos 4).lost = 40 :=
  ⟨entry_of (by decide +kernel), by decide +kernel⟩

/-- R179, R44: applied settings that turn QUIET on. -/
theorem test_met_settingsQuiet :
    let s := { withSettings [1, 0, 3, 0, 1, 0, 0, 0, 0x81, 1] with lineB := { idleLine with heldBack := true } }
    let t := after .settingsEditionTaken s
    s.entryAtHead 24 [] ∧ ((t.line .A).activity, (t.line .B).activity) = (.quiet 0, .quiet 0) ∧
    (t.line .B).heldBack = false ∧ t.blockEdition = 2 ∧ t.permits.permitWord = 0x81 :=
  ⟨entry_of (by decide +kernel), by decide +kernel⟩

/-- R125: a list of a new UID, a malformed one, the first again and another new one. -/
theorem test_met_importMixed :
    let u := withTask 0 0x08 [0, 0x20, 4, 0]
    let s := { u with mem := u.mem.write 0x2000 ([jaw, 1, jaw, 0].flatMap bytes64) }
    let t := after .retiredImport s
    s.taskAtHead 0 0x08 [] ∧ s.mem.uids 0x2000 4 = [jaw, 1, jaw, 0] ∧ t.retired = [jaw, 0] ∧
    t.mem.bytes 0x1084 12 = [4, 0, 2, 0, 1, 0, 1, 0, 0, 0, 2, 0] :=
  ⟨head_of (by decide +kernel), by decide +kernel⟩

theorem test_met_importUid :
    let full := { base with retired := List.replicate 128 (0 : Word64) }
    uidWellFormed 1 = false ∧ uidWellFormed jaw = true ∧ jaw ∉ full.retired ∧ (0 : Word64) ∈ full.retired ∧
    128 ≤ full.retired.length ∧ full.retired = [] ++ 0 :: List.replicate 127 0 ∧
    (∀ p, ¬ ((full.pos p).verdict = .barred ∧ (full.pos p).boundUid = some 0)) ∧
    (importUid (full, ⟨0, 0, 0, 0⟩) jaw).2 = ⟨1, 0, 0, 1⟩ := by decide +kernel

/-- A CALIBRATE of slot 3 in sampling, slots 5 and 6 waiting behind it. -/
def calibrated (d : Disposition) : State :=
  { base with meas := { base.meas with
    state := .sampling, inFlight := some { request := calibration 3 1, disposition := d },
    waiting := [calibration 5 2, calibration 6 7] } }

/-- R85, R88: the oldest waiting task enters the queue, or ends IN_USE and the next is taken. -/
theorem test_met_calibrateAdvances :
    let samples : Vector Word16 16 := Vector.replicate 16 100
    let using2 (s : State) : State := s.setPos 4 { fitted with applied := { fitted.applied with channel := some 2 } }
    let t (s : State) : List MeasRequest × List MeasRequest × Nat :=
      let u := after (.samplingEnd samples) s
      (u.meas.queue, u.meas.waiting, u.free)
    t (calibrated .live) = ([calibration 5 2], [calibration 6 7], 0) ∧
    t (using2 (calibrated .live)) = ([calibration 6 7], [], 1) ∧
    t (calibrated .cancelled) = ([calibration 5 2], [calibration 6 7], 1) ∧
    t (calibrated .withdrawn) = ([calibration 5 2], [calibration 6 7], 0) ∧
    (after (.samplingEnd samples) (calibrated .live)).meas.cal[1].offset = 100 ∧
    (after (.samplingEnd samples) (calibrated .withdrawn)).meas.cal[1].offset = 0 ∧
    (using2 (calibrated .live)).meas.waiting = [calibration 5 2, calibration 6 7] := by decide +kernel

/-- R54, R22, R56: an IDENTIFY reply of another tag status, one that shows the bound UID alone, and one at an unbound
position. -/
theorem test_met_identifyReply :
    let s (x : Position) : State := withJaw { x with seq := .cycle, missed := 1, cycle := some (cycling .identify) }
    let shown (t : State) : Word16 × UidHeld × Word16 × Word16 × Word16 :=
      let y := t.pos 4
      (y.findings, y.uid, y.classCode, y.missed, y.clockRatio)
    shown ((s fitted).positionLine 4 (.reply 9 [] 9601 2)) = (0x0002, .none, 0, 0, 9601) ∧
    shown ((s fitted).positionLine 4 (.reply 6 (2 :: bytes64 jaw) 9601 2)) = (0x0002, .bound jaw, 310, 0, 9601) ∧
    shown ((s { fitted with uid := .none, verdict := .vacant }).positionLine 4 (.reply 6 (2 :: bytes64 1) 9601 2)) =
      (0x0003, .none, 0, 0, 9601) ∧
    (((s fitted).positionLine 4 (.reply 9 [] 9601 2)).record jaw).map (·.bound) = some none := by decide +kernel

/-- R57, R15, R111, R143: an arrival departs the old binding and refills grace. -/
theorem test_met_arrival :
    let old : IdentityRecord := { jawRecord with uid := 0 }
    let s := { checking { fitted with uid := .bound 0, verdict := .doubtful, doubt := 2, clean := 1, grace := 1 } jawRecord with
      identity := [old] }
    let t := s.checks 4
    let y := t.pos 4
    (y.verdict, y.doubt, y.clean, y.grace, y.uid, y.seq) = (.arriving, 0, 0, 7, .bound jaw, .cycle) ∧
      t.identity.map (fun r => (r.uid, r.bound)) = [(0, none), (jaw, some 4)] ∧ formatFindings (s.context 4) = 0 ∧
      (s.pos 4).boundUid ≠ some (tagUid (s.context 4).blocks) := by decide +kernel

/-- R43, R65: a CHALLENGE placed on a STUCK line. -/
theorem test_met_challengeStuck :
    let s := { checking fitted jawRecord with lineA := { idleLine with state := .stuck } }
    let y := (s.checks 4).pos 4
    (y.findings, y.reason, y.lastLineError, y.seq, y.verdict) = (0, .link, some .stuck, .idle, .cleared) ∧
      (s.line (s.pos 4).applied.line).state = .stuck := by decide +kernel

/-- R66: after a confirmed CHALLENGE: mode NONE, no channel, a factory value of 0. -/
theorem test_met_signatureLeftOut :
    let s (channel : Option ChannelId) (c : CycleContext) : State := withJaw { fitted with
      seq := .cycle, cycle := some c, applied := { fitted.applied with channel := channel } }
    let noFactory := { cycling .challenge with blocks := bytes64 jaw ++ leBytes 4 310 ++ List.replicate 16 0 }
    let shown (t : State) : Word16 × Reason × SeqState := let y := t.pos 4; (y.findings, y.reason, y.seq)
    shown ((s none { cycling .challenge with classCopy := some (aClass 310) }).enterSignature 4) = (0, .none, .idle) ∧
    shown ((s none (cycling .challenge)).enterSignature 4) = (0, .noChannel, .idle) ∧
    shown ((s (some 1) noFactory).enterSignature 4) = (0x0200, .none, .idle) ∧ tagFactory noFactory.blocks = 0 := by
  decide +kernel

/-- A CHALLENGE reply that is genuine, whatever RF is. -/
theorem test_met_genuine (w : Word64) : word64At (bytes64 w) 0 = w := word64At_bytes64 w

end Sys2Proof.Tests
end

section
/-! SUPPORT. The examination of a configuration half (R1): what the codes of its fields name, the accept classes as a
set, the clamped numbers, and the recording of a refused half. -/
namespace Sys2Proof.Machine

/-! ### Codes of the fields -/

/-- A field with the two values 0 and 1 names one of two things up to 1 and nothing above. -/
theorem twoCode_eq {α : Type} (b : Byte) (x y : α) :
    (if b = 0 then some x else if b = 1 then some y else none) =
      if b.toNat ≤ 1 then some (if b = 0 then x else y) else none := by
  by_cases h0 : b = 0
  · simp [h0]
  · by_cases h1 : b = 1
    · simp [h1]
    · have hlt : ¬ b.toNat ≤ 1 := by bv_omega
      rw [if_neg h0, if_neg h1, if_neg hlt]

theorem lineOfCode_eq (b : Byte) :
    lineOfCode b = if b.toNat ≤ 1 then some (if b = 0 then .A else .B) else none := twoCode_eq b _ _

theorem enforcementOfCode_eq (b : Byte) :
    enforcementOfCode b = if b.toNat ≤ 1 then some (if b = 0 then .observe else .enforce) else none := twoCode_eq b _ _

theorem tempSourceOfCode_eq (b : Byte) :
    tempSourceOfCode b = if b.toNat ≤ 1 then some (if b = 0 then .tag else .hostValue) else none := twoCode_eq b _ _

/-- A number below `n` or NONE names a thing, and the thing named is that number or absent. -/
theorem optionOfCode_of_named {n : Nat} (hn : n ≤ 255) {b : Byte} (h : b.toNat < n ∨ b = 0xFF) :
    ∃ o, optionOfCode n b = some o ∧ o.map Fin.val = if b = 0xFF then none else some b.toNat := by
  by_cases hb : b.toNat < n
  · have hne : b ≠ 0xFF := by
      rintro rfl
      exact absurd hb (Nat.not_lt.2 hn)
    exact ⟨some ⟨b.toNat, hb⟩, dif_pos hb, (if_neg hne).symm⟩
  · have he : b = 0xFF := h.resolve_left hb
    exact ⟨none, (dif_neg hb).trans (if_pos he), (if_pos he).symm⟩

theorem optionOfCode_of_not_named {n : Nat} {b : Byte} (h : ¬ (b.toNat < n ∨ b = 0xFF)) : optionOfCode n b = none := by
  obtain ⟨hb, he⟩ := not_or.1 h
  exact (dif_neg hb).trans (if_neg he)

/-! ### Clamped numbers -/

theorem clampNat_eq_max_min {lo hi : Nat} (h : lo ≤ hi) (v : Nat) : clampNat lo hi v = max lo (min hi v) := by
  unfold clampNat
  split
  · omega
  · split <;> omega

/-- A clamp marks exactly the values outside the range. -/
theorem clampNat_ne_iff {lo hi : Nat} (h : lo ≤ hi) (v : Nat) : clampNat lo hi v ≠ v ↔ v < lo ∨ hi < v := by
  rw [clampNat_eq_max_min h]
  omega

/-- A number brought into a range of 16 bits is held in a word as it is. -/
theorem toNat_clampNat {lo hi : Nat} (h : lo ≤ hi) (hh : hi < 2 ^ 16) (v : Nat) :
    (BitVec.ofNat 16 (clampNat lo hi v)).toNat = max lo (min hi v) := by
  rw [clampNat_eq_max_min h, BitVec.toNat_ofNat]
  exact Nat.mod_eq_of_lt (by omega)

/-! ### The accept classes -/

theorem mem_insertCode {c v : Word16} {l : List Word16} : v ∈ insertCode c l ↔ v = c ∨ v ∈ l := by
  induction l with
  | nil => simp [insertCode]
  | cons d ds ih =>
    unfold insertCode
    split
    · rename_i h
      simp [h]
    · split
      · simp
      · simp only [List.mem_cons, ih]
        exact or_left_comm

/-- Inserting keeps a set of codes rising. -/
theorem insertCode_pairwise {c : Word16} {l : List Word16} (h : l.Pairwise (fun u v => u.toNat < v.toNat)) :
    (insertCode c l).Pairwise (fun u v => u.toNat < v.toNat) := by
  induction l with
  | nil => simp [insertCode]
  | cons d ds ih =>
    obtain ⟨hd, hds⟩ := List.pairwise_cons.1 h
    unfold insertCode
    split
    · exact h
    · rename_i hcd
      split
      · rename_i hlt
        refine List.pairwise_cons.2 ⟨fun v hv => ?_, h⟩
        rcases List.mem_cons.1 hv with rfl | hv
        · exact hlt
        · exact Nat.lt_trans hlt (hd v hv)
      · rename_i hge
        refine List.pairwise_cons.2 ⟨fun v hv => ?_, ih hds⟩
        rcases mem_insertCode.1 hv with rfl | hv
        · bv_omega
        · exact hd v hv

/-- One entry taken into the set: 0 is no entry. -/
def acceptCode (set : List Word16) (c : Word16) : List Word16 := if c = 0 then set else insertCode c set

theorem acceptSet_eq_foldl (entries : List Word16) : acceptSet entries = entries.foldl acceptCode [] := rfl

theorem mem_acceptCode {set : List Word16} {c v : Word16} : v ∈ acceptCode set c ↔ v ∈ set ∨ v ≠ 0 ∧ v = c := by
  unfold acceptCode
  split
  · rename_i h
    subst h
    exact ⟨Or.inl, fun h => h.resolve_right (fun hv => hv.1 hv.2)⟩
  · rename_i h
    have hne : v = c → v ≠ 0 := fun e => e ▸ h
    rw [mem_insertCode, or_comm, and_iff_right_of_imp hne]

theorem acceptCode_pairwise {set : List Word16} (c : Word16) (h : set.Pairwise (fun u v => u.toNat < v.toNat)) :
    (acceptCode set c).Pairwise (fun u v => u.toNat < v.toNat) := by
  unfold acceptCode
  split
  · exact h
  · exact insertCode_pairwise h

theorem mem_foldl_acceptCode {entries set : List Word16} {v : Word16} :
    v ∈ entries.foldl acceptCode set ↔ v ∈ set ∨ v ≠ 0 ∧ v ∈ entries := by
  induction entries generalizing set with
  | nil => simp
  | cons c cs ih =>
    rw [List.foldl_cons, ih, mem_acceptCode, List.mem_cons, or_assoc, ← and_or_left]

theorem foldl_acceptCode_pairwise {entries set : List Word16} (h : set.Pairwise (fun u v => u.toNat < v.toNat)) :
    (entries.foldl acceptCode set).Pairwise (fun u v => u.toNat < v.toNat) := by
  induction entries generalizing set with
  | nil => exact h
  | cons c cs ih => exact ih (acceptCode_pairwise c h)

/-- R1: the accept classes are the nonzero entries. -/
theorem mem_acceptSet {entries : List Word16} {v : Word16} : v ∈ acceptSet entries ↔ v ≠ 0 ∧ v ∈ entries := by
  rw [acceptSet_eq_foldl, mem_foldl_acceptCode]
  simp

theorem acceptSet_pairwise (entries : List Word16) : (acceptSet entries).Pairwise (fun u v => u.toNat < v.toNat) :=
  foldl_acceptCode_pairwise List.Pairwise.nil

/-! ### The outcomes of the examination (R1) -/

section Examination

variable {m : Memory} {p : PosId}

/-- The fields of the half up to the tag address pass. -/
def HalfAddressed (m : Memory) (p : PosId) (line : LineId) : Prop :=
  m.read (positionAddr p + 0x02) ≠ 0 ∧ lineOfCode (m.read (positionAddr p + 0x03)) = some line ∧
    ¬ (m.read (positionAddr p + 0x04) = 0 ∨ 31 < (m.read (positionAddr p + 0x04)).toNat)

/-- The configuration that a half gives once the codes of its fields name these values. -/
def halfConfig (m : Memory) (p : PosId) (line : LineId) (channel : Option ChannelId) (cycleInput : Option InputId)
    (enforcement : Enforcement) (group : Option GroupId) (tempSource : TempSource) : PosConfig :=
  let word (i : Nat) := m.word (positionAddr p + i)
  { line := line, address := m.read (positionAddr p + 0x04), channel := channel,
    accept := acceptSet [word 0x14, word 0x16, word 0x18, word 0x1A],
    interval := BitVec.ofNat 16 (clampNat 5 600 (word 0x0C).toNat), cycleInput := cycleInput,
    threshold := BitVec.ofNat 16 (clampNat 1 60000 (word 0x0E).toNat), grace := word 0x10, enforcement := enforcement,
    group := group, tempSource := tempSource, allowExpired := decide (m.read (positionAddr p + 0x0A) ≠ 0),
    vacancyAllows := decide (m.read (positionAddr p + 0x0B) ≠ 0) }

/-- The interval or the threshold of the half lies outside its range. -/
def halfClamped (m : Memory) (p : PosId) : Bool :=
  decide (clampNat 5 600 (m.word (positionAddr p + 0x0C)).toNat ≠ (m.word (positionAddr p + 0x0C)).toNat ∨
    clampNat 1 60000 (m.word (positionAddr p + 0x0E)).toNat ≠ (m.word (positionAddr p + 0x0E)).toNat)

theorem examineHalf_of_disabled (h : m.read (positionAddr p + 0x02) = 0) : examineHalf m p = .disabled := by
  simp only [examineHalf, h, if_true]

theorem examineHalf_of_badLine (he : m.read (positionAddr p + 0x02) ≠ 0)
    (hl : lineOfCode (m.read (positionAddr p + 0x03)) = none) : examineHalf m p = .refused .badValue := by
  simp only [examineHalf, he, if_false, hl]

theorem examineHalf_of_badAddress {line : LineId} (he : m.read (positionAddr p + 0x02) ≠ 0)
    (hl : lineOfCode (m.read (positionAddr p + 0x03)) = some line)
    (ha : m.read (positionAddr p + 0x04) = 0 ∨ 31 < (m.read (positionAddr p + 0x04)).toNat) :
    examineHalf m p = .refused .badAddress := by
  simp only [examineHalf, he, if_false, hl, ha, if_true]

/-- The codes after the tag address all refuse with BAD_VALUE, so their order among themselves does not show. -/
theorem examineHalf_of_badCode {line : LineId} (h : HalfAddressed m p line)
    (hc : optionOfCode 24 (m.read (positionAddr p + 0x05)) = none ∨
      optionOfCode 8 (m.read (positionAddr p + 0x06)) = none ∨ optionOfCode 8 (m.read (positionAddr p + 0x07)) = none ∨
      enforcementOfCode (m.read (positionAddr p + 0x08)) = none ∨
      tempSourceOfCode (m.read (positionAddr p + 0x09)) = none) :
    examineHalf m p = .refused .badValue := by
  obtain ⟨he, hl, ha⟩ := h
  simp only [examineHalf, he, hl, ha, if_false]
  cases hch : optionOfCode 24 (m.read (positionAddr p + 0x05)) with
  | none => rfl
  | some channel =>
  cases hin : optionOfCode 8 (m.read (positionAddr p + 0x06)) with
  | none => rfl
  | some cycleInput =>
  cases hen : enforcementOfCode (m.read (positionAddr p + 0x08)) with
  | none => rfl
  | some enforcement =>
  cases hgr : optionOfCode 8 (m.read (positionAddr p + 0x07)) with
  | none => rfl
  | some group =>
  cases hte : tempSourceOfCode (m.read (positionAddr p + 0x09)) with
  | none => rfl
  | some tempSource => simp [hch, hin, hen, hgr, hte] at hc

theorem examineHalf_of_codes {line : LineId} {channel : Option ChannelId} {cycleInput : Option InputId}
    {enforcement : Enforcement} {group : Option GroupId} {tempSource : TempSource} (h : HalfAddressed m p line)
    (hch : optionOfCode 24 (m.read (positionAddr p + 0x05)) = some channel)
    (hin : optionOfCode 8 (m.read (positionAddr p + 0x06)) = some cycleInput)
    (hgr : optionOfCode 8 (m.read (positionAddr p + 0x07)) = some group)
    (hen : enforcementOfCode (m.read (positionAddr p + 0x08)) = some enforcement)
    (hte : tempSourceOfCode (m.read (positionAddr p + 0x09)) = some tempSource) :
    examineHalf m p =
      .accepted (halfConfig m p line channel cycleInput enforcement group tempSource) (halfClamped m p) := by
  obtain ⟨he, hl, ha⟩ := h
  simp only [examineHalf, he, hl, ha, hch, hin, hgr, hen, hte, if_false]
  rfl

theorem halfAddressed_of_fields (he : m.read (positionAddr p + 0x02) ≠ 0)
    (hl : (m.read (positionAddr p + 0x03)).toNat ≤ 1) (h1 : 1 ≤ (m.read (positionAddr p + 0x04)).toNat)
    (h31 : (m.read (positionAddr p + 0x04)).toNat ≤ 31) :
    HalfAddressed m p (if m.read (positionAddr p + 0x03) = 0 then .A else .B) :=
  ⟨he, by rw [lineOfCode_eq, if_pos hl], by bv_omega⟩

/-- CLAMPED is marked by an interval outside 5..600 or a threshold outside 1..60 000. -/
theorem halfClamped_eq : halfClamped m p =
    decide ((m.word (positionAddr p + 0x0C)).toNat < 5 ∨ 600 < (m.word (positionAddr p + 0x0C)).toNat ∨
      (m.word (positionAddr p + 0x0E)).toNat = 0 ∨ 60000 < (m.word (positionAddr p + 0x0E)).toNat) := by
  unfold halfClamped
  simp only [clampNat_ne_iff (show 5 ≤ 600 by decide), clampNat_ne_iff (show 1 ≤ 60000 by decide), Nat.lt_one_iff,
    or_assoc]

/-- The codes of channel, cycle input, group, enforcement and temperature source all name a value. -/
def HalfNumbersOk (m : Memory) (p : PosId) : Prop :=
  let b := fun i => m.read (positionAddr p + i)
  ((b 5).toNat < 24 ∨ b 5 = 0xFF) ∧ ((b 6).toNat < 8 ∨ b 6 = 0xFF) ∧ ((b 7).toNat < 8 ∨ b 7 = 0xFF) ∧
    (b 8).toNat ≤ 1 ∧ (b 9).toNat ≤ 1

theorem examineHalf_of_not_numbersOk {line : LineId} (h : HalfAddressed m p line)
    (hn : ¬ HalfNumbersOk m p) : examineHalf m p = .refused .badValue := by
  refine examineHalf_of_badCode h (Classical.byContradiction fun hc => hn ?_)
  simp only [not_or] at hc
  obtain ⟨hch, hin, hgr, hen, hte⟩ := hc
  refine ⟨?_, ?_, ?_, ?_, ?_⟩
  · exact Classical.byContradiction fun e => hch (optionOfCode_of_not_named e)
  · exact Classical.byContradiction fun e => hin (optionOfCode_of_not_named e)
  · exact Classical.byContradiction fun e => hgr (optionOfCode_of_not_named e)
  · exact Classical.byContradiction fun e => hen ((enforcementOfCode_eq _).trans (if_neg e))
  · exact Classical.byContradiction fun e => hte ((tempSourceOfCode_eq _).trans (if_neg e))

/-- A half whose codes all name a value is accepted, with these values. -/
theorem examineHalf_of_numbersOk {line : LineId} (h : HalfAddressed m p line)
    (hn : HalfNumbersOk m p) :
    ∃ channel cycleInput group,
      examineHalf m p = .accepted (halfConfig m p line channel cycleInput
        (if m.read (positionAddr p + 0x08) = 0 then .observe else .enforce) group
        (if m.read (positionAddr p + 0x09) = 0 then .tag else .hostValue)) (halfClamped m p) ∧
      channel.map Fin.val = (if m.read (positionAddr p + 0x05) = 0xFF then none
        else some (m.read (positionAddr p + 0x05)).toNat) ∧
      cycleInput.map Fin.val = (if m.read (positionAddr p + 0x06) = 0xFF then none
        else some (m.read (positionAddr p + 0x06)).toNat) ∧
      group.map Fin.val = (if m.read (positionAddr p + 0x07) = 0xFF then none
        else some (m.read (positionAddr p + 0x07)).toNat) := by
  obtain ⟨hch, hin, hgr, hen, hte⟩ := hn
  obtain ⟨channel, hch, vch⟩ := optionOfCode_of_named (by decide) hch
  obtain ⟨cycleInput, hin, vin⟩ := optionOfCode_of_named (by decide) hin
  obtain ⟨group, hgr, vgr⟩ := optionOfCode_of_named (by decide) hgr
  exact ⟨channel, cycleInput, group,
    examineHalf_of_codes h hch hin hgr ((enforcementOfCode_eq _).trans (if_pos hen))
      ((tempSourceOfCode_eq _).trans (if_pos hte)), vch, vin, vgr⟩

end Examination

/-! ### Recording a refused half (R3) -/

/-- R3: the refusal is recorded with the edition read, and the half is posted. -/
def State.recordRefusal (s : State) (p : PosId) (r : RefusalReason) : State :=
  (s.setPos p { s.pos p with
    configStatus := .refused, refusal := r, examined := s.mem.word (positionAddr p) }).postHalf p

theorem State.examineAndApply_of_refused {s : State} {p : PosId} {r : RefusalReason}
    (h : examineHalf s.mem p = .refused r) : s.examineAndApply p = s.recordRefusal p r := by
  simp only [State.examineAndApply, h]
  rfl

theorem State.examineAndApply_of_conflict {s : State} {p : PosId} {c : PosConfig} {clamped : Bool} {r : RefusalReason}
    (h : examineHalf s.mem p = .accepted c clamped) (hc : s.conflict p c = some r) :
    s.examineAndApply p = s.recordRefusal p r := by
  simp only [State.examineAndApply, h, hc]
  rfl

/-- R2: the line and tag address of another enabled position are taken. -/
theorem State.conflict_addressInUse {s : State} {p q : PosId} {c : PosConfig} (hq : q ≠ p)
    (he : (s.pos q).enabled = true) (hl : (s.pos q).applied.line = c.line)
    (ha : (s.pos q).applied.address = c.address) : s.conflict p c = some .addressInUse := by
  have hmem : s.pos q ∈ (allPositions.filter (fun q => decide (q ≠ p))).map s.pos :=
    List.mem_map_of_mem (List.mem_filter.2 ⟨List.mem_finRange q, decide_eq_true hq⟩)
  refine if_pos (List.any_eq_true.2 ⟨s.pos q, hmem, ?_⟩)
  simp only [he, hl, ha, decide_true, Bool.and_self]

theorem State.pos_postHalf (s : State) (p : PosId) :
    (s.postHalf p).pos p = { s.pos p with edition := (s.pos p).edition + 2, pulseDirty := false } :=
  State.pos_setPos s p _

@[simp] theorem State.recordRefusal_seq (s : State) (p : PosId) (r : RefusalReason) :
    ((s.recordRefusal p r).pos p).seq = (s.pos p).seq := by
  simp only [State.recordRefusal, State.pos_postHalf, State.pos_setPos]

/-- Only an IDLE sequencer chooses (R8). -/
theorem State.choose_of_not_idle {s : State} {p : PosId} (h : (s.pos p).seq ≠ .idle) : s.choose p = s := if_pos h

/-- A refused examination leaves a sequencer in OFF, which chooses nothing. -/
theorem State.configEdition_of_off {s : State} {p : PosId} {r : RefusalReason} (hoff : (s.pos p).seq = .off)
    (h : s.examineAndApply p = s.recordRefusal p r) : s.configEdition p = s.recordRefusal p r := by
  have hidle : ((s.recordRefusal p r).pos p).seq ≠ .idle := by simp [hoff]
  simp only [State.configEdition, hoff, true_or, if_true, h, State.choose_of_not_idle hidle, ite_self]

theorem exec_configEditionTaken_of_head {s : State} {p : PosId} {rest : List WatchId}
    (h : s.entryAtHead (watchOfPos p) rest) :
    exec .configEditionTaken s = .next ((s.withWatch rest).configEdition p).finish := by
  show execConfigEditionTaken s = _
  simp only [execConfigEditionTaken, State.takeEntry_of_head h, posOfWatch_watchOfPos]

/-- R1, R3: a half refused by its fields or by an address in use is recorded with its reason. -/
theorem exec_configEditionTaken_of_refused {s : State} {p : PosId} {rest : List WatchId} {r : RefusalReason}
    (h : s.entryAtHead (watchOfPos p) rest) (hoff : (s.pos p).seq = .off)
    (hr : examineHalf s.mem p = .refused r ∨ r = .addressInUse ∧ ∃ c clamped q,
      examineHalf s.mem p = .accepted c clamped ∧ q ≠ p ∧ (s.pos q).enabled = true ∧
      (s.pos q).applied.line = c.line ∧ (s.pos q).applied.address = c.address) :
    exec .configEditionTaken s = .next ((s.withWatch rest).recordRefusal p r).finish := by
  have hrec : (s.withWatch rest).examineAndApply p = (s.withWatch rest).recordRefusal p r := by
    rcases hr with hr | ⟨rfl, c, clamped, q, hacc, hq, he, hl, ha⟩
    · exact State.examineAndApply_of_refused hr
    · exact State.examineAndApply_of_conflict hacc (State.conflict_addressInUse (s := s.withWatch rest) hq he hl ha)
  rw [exec_configEditionTaken_of_head h, State.configEdition_of_off (s := s.withWatch rest) hoff hrec]

/-! ### The statement -/

/-- Settles O25: the outcomes of the examination by the first field that refuses, and the recording of a refusal. -/
theorem configHalfExamined : Obligations.ConfigHalfExamined := by
  refine ⟨fun s p rest r h hoff hr => exec_configEditionTaken_of_refused h hoff hr, fun m p => ?_⟩
  refine ⟨examineHalf_of_disabled, fun he hl => ?badLine, fun he hl ha => ?badAddress,
    fun he hl h1 h31 hn => ?badCode, fun he hl h1 h31 hn => ?accepted⟩
  case badLine => exact examineHalf_of_badLine he ((lineOfCode_eq _).trans (if_neg (Nat.not_le.2 hl)))
  case badAddress =>
    exact examineHalf_of_badAddress he ((lineOfCode_eq _).trans (if_pos hl)) (ha.imp_left BitVec.eq_of_toNat_eq)
  case badCode => exact examineHalf_of_not_numbersOk (halfAddressed_of_fields he hl h1 h31) hn
  case accepted =>
    obtain ⟨channel, cycleInput, group, hacc, vch, vin, vgr⟩ :=
      examineHalf_of_numbersOk (halfAddressed_of_fields he hl h1 h31) hn
    refine ⟨_, hacc.trans (congrArg _ halfClamped_eq), rfl, rfl, vch, vin, vgr, rfl, rfl, rfl, rfl,
      toNat_clampNat (by decide) (by decide) _, toNat_clampNat (by decide) (by decide) _, rfl,
      fun v => ?_, acceptSet_pairwise _⟩
    simp only [halfConfig, mem_acceptSet, List.mem_cons, List.not_mem_nil, or_false]
    rfl

end Sys2Proof.Machine
end

section
/-! SUPPORT. The permits as their inputs decide them: what a member blocks (R154), when a blocker set is empty (R161),
and the bits of the permit word (R155). -/
namespace Sys2Proof.Machine

/-! ### Members -/

/-- R154: the unit's test of the entry agrees with the list of allowing states of R155. -/
theorem Position.allowing_iff (x : Position) : x.allowing = true ↔ x.allows := by
  unfold Position.allowing Position.allows
  cases x.verdict <;> simp

theorem Position.blocks_iff (x : Position) (g : GroupId) :
    x.blocks g = true ↔
      x.enabled = true ∧ x.applied.group = some g ∧ x.applied.enforcement = .enforce ∧ ¬ x.allows := by
  simp only [Position.blocks, Bool.and_eq_true, decide_eq_true_eq, Bool.not_eq_true', ← Bool.not_eq_true,
    x.allowing_iff, and_assoc]

theorem State.memberBlocks_iff (s : State) (g : GroupId) :
    s.memberBlocks g = true ↔ ∃ p : PosId, (s.pos p).blocks g = true := by
  simp only [State.memberBlocks, List.any_eq_true, Vector.mem_toList_iff, Vector.mem_iff_getElem]
  constructor
  · rintro ⟨_, ⟨i, hi, rfl⟩, hb⟩
    exact ⟨⟨i, hi⟩, hb⟩
  · rintro ⟨p, hb⟩
    exact ⟨_, ⟨p.val, p.isLt, rfl⟩, hb⟩

/-- No member entry blocks the group exactly when every enforced member is in an allowing state. -/
theorem State.memberBlocks_eq_false_iff (s : State) (g : GroupId) :
    s.memberBlocks g = false ↔ ∀ p : PosId, (s.pos p).enabled = true → (s.pos p).applied.group = some g →
      (s.pos p).applied.enforcement = .enforce → (s.pos p).allows := by
  simp only [← Bool.not_eq_true, State.memberBlocks_iff, Position.blocks_iff, not_exists, not_and, Classical.not_not]

/-! ### Blocker sets -/

theorem State.blockerSets_getElem (s : State) (g : GroupId) : s.blockerSets[g.val] = s.blockerSet g := by
  simp only [State.blockerSets, Vector.getElem_ofFn]

/-- R161: the set is empty exactly when no condition of R155 fails. -/
theorem State.blockerSet_eq_zero_iff (s : State) (g : GroupId) : s.blockerSet g = 0 ↔ s.mayRun g := by
  have hn : bNotRunning ≠ 0#8 := by decide
  have hi : bInhibit ≠ 0#8 := by decide
  have hd : bDisabledGroup ≠ 0#8 := by decide
  have hh : bHeld ≠ 0#8 := by decide
  have hp : bPositions ≠ 0#8 := by decide
  simp only [State.mayRun, ← State.memberBlocks_eq_false_iff, State.blockerSet, BitVec.ofNat_eq_ofNat,
    BitVec.or_eq_zero_iff, ite_eq_left_iff, ite_eq_right_iff, hn, hi, hd, hh, hp, imp_false, Classical.not_not,
    Bool.not_eq_true, Bool.not_eq_false, and_assoc]

/-! ### The permit word -/

/-- One bit a set, the first set's bit lowest: bit `i` says that set `i` is there and empty. -/
theorem testBit_foldr_emptySets (b : List Byte) (i : Nat) :
    (b.foldr (fun x n => (if x = 0 then 1 else 0) + 2 * n) 0).testBit i = decide (b[i]? = some 0) := by
  induction b generalizing i with
  | nil => simp
  | cons x b ih =>
    cases i with
    | zero => by_cases hx : x = 0#8 <;> simp [hx]
    | succ i =>
      rw [List.foldr_cons, List.getElem?_cons_succ, ← ih i, Nat.testBit_succ]
      congr 1
      split <;> omega

theorem permitWordOf_getLsbD (b : Vector Byte 8) (g : GroupId) :
    (permitWordOf b).getLsbD g.val = decide (b[g.val] = 0) := by
  rw [permitWordOf, BitVec.getLsbD_ofNat, testBit_foldr_emptySets]
  simp

/-- Where the permits are current an output is high exactly when the conditions of R155 hold. -/
theorem State.permitOutput_iff_mayRun {s : State} (h : s.permitsCurrent = true) (g : GroupId) :
    s.permitOutput g = true ↔ s.mayRun g := by
  obtain ⟨-, hword⟩ := State.permitsCurrent_iff.1 h
  rw [State.permitOutput, hword, permitWordOf_getLsbD, State.blockerSets_getElem, decide_eq_true_iff,
    State.blockerSet_eq_zero_iff]

/-- Without power, or in reset, every output is low (R155, R189). -/
theorem State.permitOutput_of_not_on {s : State} (h : s.permitsFollow) (hp : s.power ≠ .on) (g : GroupId) :
    s.permitOutput g = false := by
  simp only [State.permitOutput, h.2 hp, BitVec.ofNat_eq_ofNat, BitVec.getLsbD_zero]

/-! ### The statement -/

/-- Settles O4: with power the permit word is that of the blocker sets, without it every output is low. -/
theorem permitOutputExactly : Obligations.PermitOutputExactly := by
  intro s g h
  by_cases hp : s.power = .on
  · simp only [State.permitOutput_iff_mayRun (h.1 hp) g, hp, true_and]
  · simp only [State.permitOutput_of_not_on h hp g, hp, false_and, Bool.false_eq_true]

end Sys2Proof.Machine
end

section
/-! SUPPORT. What a command can do: every command answers a next state, without power only the supply and reset act, and
one table says which items of the frame each command moves. -/
namespace Sys2Proof.Machine

/-! ### Every command answers a state -/

/-- The manual names no stop (log 1). -/
theorem exec_answers (c : Instr) (s : State) : ∃ t, exec c s = .next t := by
  cases c with
  | configEditionTaken =>
    show ∃ t, execConfigEditionTaken s = .next t
    unfold execConfigEditionTaken; (repeat' split) <;> exact ⟨_, rfl⟩
  | settingsEditionTaken =>
    show ∃ t, execSettingsEditionTaken s = .next t
    unfold execSettingsEditionTaken; split <;> exact ⟨_, rfl⟩
  | taskBadKind => show ∃ t, execTaskBadKind s = .next t; unfold execTaskBadKind; split <;> exact ⟨_, rfl⟩
  | cancel => show ∃ t, execCancel s = .next t; unfold execCancel; split <;> exact ⟨_, rfl⟩
  | ownerWordMisuse =>
    show ∃ t, execOwnerWordMisuse s = .next t
    unfold execOwnerWordMisuse; split <;> exact ⟨_, rfl⟩
  | keyTaskServe => show ∃ t, execKeyTaskServe s = .next t; unfold execKeyTaskServe; split <;> exact ⟨_, rfl⟩
  | keyWriteEnd => show ∃ t, execKeyWriteEnd s = .next t; unfold execKeyWriteEnd; split <;> exact ⟨_, rfl⟩
  | lineTransactionStart l =>
    show ∃ t, execLineTransactionStart l s = .next t
    unfold execLineTransactionStart; split <;> exact ⟨_, rfl⟩
  | readbackFailure l bit level =>
    show ∃ t, execReadbackFailure l bit level s = .next t
    unfold execReadbackFailure; split <;> exact ⟨_, rfl⟩
  | replyAttemptError l es =>
    show ∃ t, execReplyAttemptError l es s = .next t
    unfold execReplyAttemptError; split <;> exact ⟨_, rfl⟩
  | replyComplete l es =>
    show ∃ t, execReplyComplete l es s = .next t
    unfold execReplyComplete; split <;> exact ⟨_, rfl⟩
  | measurementStart =>
    show ∃ t, execMeasurementStart s = .next t
    unfold execMeasurementStart; split <;> exact ⟨_, rfl⟩
  | samplingEnd xs => show ∃ t, execSamplingEnd xs s = .next t; unfold execSamplingEnd; split <;> exact ⟨_, rfl⟩
  | _ => exact ⟨_, rfl⟩

/-! ### Runs of work -/

/-- `t` is reached by work of the device: entries have left the head of the watch queue, a STOPPING device may have
become STOPPED, and the frame has moved by `upd` in nothing else. -/
def State.worksTo (s t : State) (upd : Frame → Frame) : Prop :=
  ∃ n d, t.frame = upd { s.frame with watch := s.watch.drop n, device := d } ∧
    (d = s.device ∨ (s.device = .stopping ∧ d = .stopped))

theorem State.worksTo_of_frame {s t : State} {upd : Frame → Frame} (h : t.frame = upd s.frame) : s.worksTo t upd :=
  ⟨0, s.device, h, .inl rfl⟩

theorem State.worksTo_of_framePast {s t : State} (h : s.framePast t) : s.worksTo t id := by
  obtain ⟨n, h⟩ := h
  exact ⟨n, s.device, h, .inl rfl⟩

/-- Work that begins where the frame is as it was. -/
theorem State.worksTo_of_left {s u t : State} {upd : Frame → Frame} (e : u.frame = s.frame) (h : u.worksTo t upd) :
    s.worksTo t upd := by
  obtain ⟨n, d, h, hd⟩ := h
  exact ⟨n, d, by rw [h, e, Frame.watch_eq e], by rw [← Frame.device_eq e]; exact hd⟩

/-- Work that goes on with nothing of the frame moved. -/
theorem State.worksTo_of_right {s u t : State} {upd : Frame → Frame} (h : s.worksTo u upd) (e : t.frame = u.frame) :
    s.worksTo t upd := by
  obtain ⟨n, d, h, hd⟩ := h
  exact ⟨n, d, e.trans h, hd⟩

/-- The tail of a step adds at most the change from STOPPING to STOPPED. -/
theorem State.worksTo_finish {s u : State} {upd : Frame → Frame} (h : s.worksTo u upd)
    (hd : ∀ f d, { upd f with device := d } = upd { f with device := d }) (hk : ∀ f, (upd f).device = f.device) :
    s.worksTo u.finish upd := by
  obtain ⟨n, d, h, hs⟩ := h
  have hu : u.device = d := (congrArg Frame.device h).trans (hk _)
  refine ⟨n, u.finish.device, by rw [u.frame_finish, h, hd], ?_⟩
  rcases u.finish_device with e | ⟨e1, e2⟩
  · rw [e, hu]; exact hs
  · rcases hs with hs | hs
    · exact .inr ⟨by rw [← hs, ← hu, e1], e2⟩
    · rw [hu, hs.2] at e1; cases e1

/-- Work on the state in which the slot at the head has been taken. -/
theorem State.worksTo_of_taken {s t : State} {k : SlotId} {kind : Word16} {rest : List WatchId} {upd : Frame → Frame}
    (h : s.taskAtHead k kind rest) (ht : (s.taken k rest).worksTo t upd) : s.worksTo t upd := by
  obtain ⟨n, d, ht, hd⟩ := ht
  obtain ⟨⟨-, -, hw⟩, -⟩ := h
  refine ⟨n + 1, d, ?_, hd⟩
  rw [ht, State.frame_taken, State.taken_watch, hw]
  rfl

/-- A task that is run works on the state with its slot taken, or is not there. -/
theorem State.worksTo_runTask {s : State} {kind : Word16} {work : SlotId → State → State} {upd : State → Frame → Frame}
    (hs : upd s s.frame = s.frame) (hw : ∀ k (u : State), u.worksTo (work k u) (upd (work k u))) :
    s.worksTo (s.runTask kind work) (upd (s.runTask kind work)) := by
  rcases s.runTask_cases kind work with e | ⟨k, rest, h, e⟩
  · rw [e]; exact State.worksTo_of_frame hs.symm
  · rw [e]; exact State.worksTo_of_taken h (hw _ _)

/-- A task whose work moves nothing of the frame, with the tail of a step. -/
theorem State.worksTo_runTask_finish {s : State} {kind : Word16} {work : SlotId → State → State}
    (hw : ∀ k u, (work k u).frame = u.frame) : s.worksTo (s.runTask kind (fun k u => (work k u).finish)) id :=
  State.worksTo_runTask (upd := fun _ => id) rfl fun k u =>
    State.worksTo_finish (State.worksTo_of_frame (hw k u)) (fun _ _ => rfl) (fun _ => rfl)

/-- A task whose work moves items of the frame as they stand afterwards. -/
theorem State.worksTo_runTask_frame {s : State} {kind : Word16} {work : SlotId → State → State}
    {upd : State → Frame → Frame} (hs : upd s s.frame = s.frame)
    (hw : ∀ k u, (work k u).frame = upd (work k u) u.frame) :
    s.worksTo (s.runTask kind work) (upd (s.runTask kind work)) :=
  State.worksTo_runTask hs fun k u => State.worksTo_of_frame (hw k u)

/-! ### The table: what of the frame each command moves -/

/-- What a write to the register window keeps of the frame `g`, whatever it writes. -/
def Frame.withKept (f g : Frame) : Frame :=
  { f with power := g.power, pending := g.pending, clearing := g.clearing, levels := g.levels, inhibitN := g.inhibitN,
           cal := g.cal, host := g.host }

end Sys2Proof.Machine

namespace Sys2Proof

/-- The supply and reset commands. -/
def Instr.isSupply : Instr → Bool
  | .powerOn | .resetNAssert | .resetNRelease _ _ | .powerLoss => true
  | _ => false

/-- The items of the frame that a command moves beside the work of the device, as they stand in the state `t` after it. -/
def Instr.moves (c : Instr) (t : Machine.State) (f : Machine.Frame) : Machine.Frame :=
  match c with
  | .powerOn | .resetNAssert | .resetNRelease _ _ | .powerLoss => { t.frame with pending := f.pending }
  | .startupCheckEnd _ => { f with device := t.device, clearing := t.clearing, keys := t.keys }
  | .stop | .resume => { f with device := t.device }
  | .restart | .registerWriteOther _ _ => t.frame.withKept f
  | .attentionEnableWrite _ => { f with attentionEnable := t.attentionEnable }
  | .hostWordWrite _ _ | .watchedWordWrite _ _ =>
    { f with clearing := t.clearing, watch := t.watch, host := t.mem.hostBytes }
  | .settingsEditionTaken =>
    { f with settings := t.settings, settingsStatus := t.settingsStatus, settingsExamined := t.settingsExamined,
             settingsApplied := t.settingsApplied, groupEnable := t.permits.groupEnable }
  | .ownerWordMisuse => { f with misuse := t.misuse }
  | .cancel | .keyLoad | .keyErase | .keysUnlock | .keysLock | .keyTaskServe | .keyWriteEnd => { f with keys := t.keys }
  | .calLoad | .samplingEnd _ => { f with cal := t.meas.cal }
  | .retiredExport => { f with host := t.mem.hostBytes }
  | .rulesLoad => { f with rules := t.rules, ruleLoads := t.ruleLoads }
  | .permitHold | .permitFree => { f with holds := t.permits.holds }
  | .classLoad | .classDrop => { f with classes := t.classes }
  | .cyclePulse _ => { f with levels := t.levels, pulses := t.pulses }
  | .inhibitNChange _ => { f with inhibitN := t.inhibitN }
  | .cycleInputAcceptedLow _ => { f with levels := t.levels }
  | _ => f

end Sys2Proof

namespace Sys2Proof.Machine

/-! ### Frames of the operations that move an item of it -/

@[simp] theorem State.frame_setKeys (s : State) (k : KeyStore) : (s.setKeys k).frame = { s.frame with keys := k } := rfl

@[simp] theorem State.frame_setCal (s : State) (c : ChannelId) (r : CalRecord) :
    (s.setCal c r).frame = { s.frame with cal := s.meas.cal.set c.val r } := rfl

theorem State.frame_eq_of_keys {s t : State} {k : KeyStore} (h : t.frame = { s.frame with keys := k }) :
    t.frame = { s.frame with keys := t.keys } := by
  rw [show t.keys = k from congrArg Frame.keys h, h]

theorem State.frame_eq_of_cal {s t : State} {c : Vector CalRecord 24} (h : t.frame = { s.frame with cal := c }) :
    t.frame = { s.frame with cal := t.meas.cal } := by
  rw [show t.meas.cal = c from congrArg Frame.cal h, h]

theorem State.frame_keys_self {s t : State} (h : t.frame = s.frame) : t.frame = { s.frame with keys := t.keys } :=
  State.frame_eq_of_keys (k := s.keys) h

theorem State.frame_queueKey (s : State) (k : SlotId) (op : KeyOp) :
    (s.queueKey k op).frame = { s.frame with keys := (s.queueKey k op).keys } :=
  State.frame_eq_of_keys (State.frame_postBlock _)

theorem State.frame_keyLoadTask (s : State) (k : SlotId) :
    (State.keyLoadTask k s).frame = { s.frame with keys := (State.keyLoadTask k s).keys } := by
  unfold State.keyLoadTask
  split
  · exact State.frame_keys_self (State.frame_completeFree ..)
  · exact State.frame_queueKey ..

theorem State.frame_keyEraseTask (s : State) (k : SlotId) :
    (State.keyEraseTask k s).frame = { s.frame with keys := (State.keyEraseTask k s).keys } := by
  unfold State.keyEraseTask
  split
  · exact State.frame_keys_self (State.frame_completeFree ..)
  · exact State.frame_queueKey ..

theorem State.frame_serveKey (s : State) (t : KeyTask) :
    (s.serveKey t).frame = { s.frame with keys := (s.serveKey t).keys } := by
  unfold State.serveKey
  split
  · exact State.frame_eq_of_keys ((State.frame_complete ..).trans (State.frame_postBlock _))
  · exact State.frame_eq_of_keys ((State.frame_complete ..).trans (State.frame_postBlock _))
  · unfold State.serveLoad
    split
    · exact State.frame_keys_self ((State.frame_completeFree ..).trans (State.frame_postBlock _))
    · exact State.frame_eq_of_keys (State.frame_postBlock _)
  · unfold State.serveErase
    split
    · exact State.frame_keys_self ((State.frame_completeFree ..).trans (State.frame_postBlock _))
    · exact State.frame_eq_of_keys ((State.frame_complete ..).trans (State.frame_postBlock _))

theorem State.frame_endKeyWrite (s : State) (w : KeyWrite) :
    (s.endKeyWrite w).frame = { s.frame with keys := (s.endKeyWrite w).keys } := by
  unfold State.endKeyWrite
  dsimp only
  split
  · exact State.frame_eq_of_keys (State.frame_postBlock _)
  · exact State.frame_eq_of_keys ((State.frame_complete ..).trans (State.frame_postBlock _))

theorem State.frame_cancelKeyTask (s : State) (k : SlotId) :
    (s.cancelKeyTask k).frame = { s.frame with keys := (s.cancelKeyTask k).keys } := by
  unfold State.cancelKeyTask
  split
  · exact State.frame_eq_of_keys ((State.frame_completeFree ..).trans (State.frame_postBlock _))
  · rfl

/-- A handed CANCEL moves nothing of the frame but the key task queue (R168). -/
theorem State.frame_handCancel (s : State) (k : SlotId) :
    (s.handCancel k).frame = { s.frame with keys := (s.handCancel k).keys } := by
  unfold State.handCancel
  dsimp only
  (repeat' split) <;> first
    | exact State.frame_cancelKeyTask _ _
    | exact State.frame_keys_self (by simp)

/-- The bytes of the owner words are not the host's in the sense of `hostByte`. -/
theorem State.frame_writeOwner (s : State) (k : SlotId) (w : Word16) :
    ({ s with mem := s.mem.writeWord (slotAddr k) w } : State).frame = s.frame := by
  have e : (s.mem.writeWord (slotAddr k) w).hostBytes = s.mem.hostBytes := hostBytes_congr (fun a ha => by
    obtain ⟨k, hk⟩ := k
    simp only [hostByte, decide_eq_true_eq] at ha
    exact Memory.read_write_ne _ _ _ (by simp only [bytes16_length, slotAddr]; omega) ha.1)
  simp only [State.frame, e]

theorem State.frame_cancelEntry (s : State) (k : SlotId) :
    (s.cancelEntry k).frame = { s.frame with keys := (s.cancelEntry k).keys } := by
  unfold State.cancelEntry
  split
  · split
    · rfl
    · exact State.frame_handCancel s k
  · exact State.frame_keys_self (State.frame_writeOwner s k _)
  · exact State.frame_keys_self (State.frame_complete ..)

theorem State.frame_countMisuse (s : State) :
    s.countMisuse.frame = { s.frame with misuse := s.countMisuse.misuse } := by
  unfold State.countMisuse
  split
  · rfl
  · rw [State.frame_postBlock]; rfl

theorem State.frame_misuseEntry (s : State) (k : SlotId) :
    (s.misuseEntry k).frame = { s.frame with misuse := (s.misuseEntry k).misuse } := by
  unfold State.misuseEntry
  split
  · split
    · exact State.frame_countMisuse s
    · rw [State.frame_countMisuse, State.frame_writeOwner]
  · rfl

theorem State.frame_calLoadTask (s : State) (k : SlotId) :
    (State.calLoadTask k s).frame = { s.frame with cal := (State.calLoadTask k s).meas.cal } := by
  unfold State.calLoadTask
  dsimp only
  split
  · exact State.frame_eq_of_cal (c := s.meas.cal) (State.frame_completeFree ..)
  · exact State.frame_eq_of_cal (State.frame_complete ..)

theorem State.frame_endCalibrate (s : State) (k : SlotId) (c : ChannelId) (kind : CalKind) (ref : Word32)
    (xs : List Word16) :
    (s.endCalibrate k c kind ref xs).frame = { s.frame with cal := (s.endCalibrate k c kind ref xs).meas.cal } :=
  State.frame_eq_of_cal (State.frame_complete ..)

theorem State.frame_handMeasurement (s : State) (r : MeasRequest) (xs : List Word16) :
    (s.handMeasurement r xs).frame = { s.frame with cal := (s.handMeasurement r xs).meas.cal } := by
  unfold State.handMeasurement
  split
  · exact State.frame_eq_of_cal (c := s.meas.cal) (by simp; rfl)
  · exact State.frame_eq_of_cal (c := s.meas.cal) (by simp; rfl)
  · exact State.frame_eq_of_cal ((State.frame_advanceCalibration _).trans (State.frame_endCalibrate ..))

theorem State.frame_rulesLoadTask (s : State) (k : SlotId) :
    (State.rulesLoadTask k s).frame =
      { s.frame with rules := (State.rulesLoadTask k s).rules, ruleLoads := (State.rulesLoadTask k s).ruleLoads } := by
  unfold State.rulesLoadTask
  dsimp only
  split
  · rw [State.frame_draw, State.frame_complete]; rfl
  · rw [State.frame_complete, State.frame_postBlock]; rfl

theorem State.frame_setHolds (s : State) (k : SlotId) (h : Byte) :
    (s.setHolds k h).frame = { s.frame with holds := (s.setHolds k h).permits.holds } := by
  unfold State.setHolds
  dsimp only
  rw [State.frame_complete, State.frame_evaluateAndPost, State.complete_permits,
    Frame.holds_eq (State.frame_evaluateAndPost _)]
  rfl

theorem State.frame_permitHoldTask (s : State) (k : SlotId) :
    (State.permitHoldTask k s).frame = { s.frame with holds := (State.permitHoldTask k s).permits.holds } := by
  unfold State.permitHoldTask
  split
  · rw [State.frame_completeFree, State.completeFree_permits]; rfl
  · exact State.frame_setHolds ..

theorem State.frame_permitFreeTask (s : State) (k : SlotId) :
    (State.permitFreeTask k s).frame = { s.frame with holds := (State.permitFreeTask k s).permits.holds } := by
  unfold State.permitFreeTask
  split
  · rw [State.frame_completeFree, State.completeFree_permits]; rfl
  · exact State.frame_setHolds ..

theorem State.frame_classLoadTask (s : State) (k : SlotId) :
    (State.classLoadTask k s).frame = { s.frame with classes := (State.classLoadTask k s).classes } := by
  unfold State.classLoadTask
  dsimp only
  split
  · rw [State.frame_draw, State.frame_complete]; rfl
  · split
    · rw [State.frame_draw, State.frame_complete]; rfl
    · rw [State.frame_complete, State.frame_postBlock]; rfl

theorem State.frame_classDropTask (s : State) (k : SlotId) :
    (State.classDropTask k s).frame = { s.frame with classes := (State.classDropTask k s).classes } := by
  unfold State.classDropTask
  dsimp only
  split
  · rw [State.frame_completeFree]; rfl
  · split
    · rw [State.frame_completeFree]; rfl
    · rw [State.frame_complete, State.frame_postBlock]; rfl

@[simp] theorem frame_importUid (acc : State × ImportCounts) (u : Word64) : (importUid acc u).1.frame = acc.1.frame := by
  unfold importUid
  dsimp only
  (repeat' split) <;> simp

theorem frame_foldl_importUid (l : List Word64) (acc : State × ImportCounts) :
    (l.foldl importUid acc).1.frame = acc.1.frame := by
  induction l generalizing acc with
  | nil => rfl
  | cons u l ih => rw [List.foldl_cons, ih, frame_importUid]

theorem State.frame_retiredImportTask (s : State) (k : SlotId) : (State.retiredImportTask k s).frame = s.frame := by
  unfold State.retiredImportTask
  dsimp only
  (repeat' split) <;> simp [frame_foldl_importUid]

theorem State.frame_retiredExportTask (s : State) (k : SlotId) :
    (State.retiredExportTask k s).frame = { s.frame with host := (State.retiredExportTask k s).mem.hostBytes } := by
  unfold State.retiredExportTask
  dsimp only
  split
  · rw [State.frame_completeFree]
    exact congrArg (fun h => { s.frame with host := h }) (congrArg Frame.host (State.frame_completeFree s k _)).symm
  · rw [State.frame_complete, hostBytes_complete]; rfl

theorem State.frame_countPulse (s : State) (k : InputId) :
    (s.countPulse k).frame = { s.frame with levels := (s.countPulse k).levels, pulses := (s.countPulse k).pulses } := by
  have e : (s.countPulse k).frame = (s.countInput k).frame := by
    unfold State.countPulse
    rw [State.frame_draw]
    exact frame_foldl _ (fun _ _ => by simp) _ _
  rw [show (s.countPulse k).levels = (s.countInput k).levels from congrArg Frame.levels e,
    show (s.countPulse k).pulses = (s.countInput k).pulses from congrArg Frame.pulses e, e]
  rfl

/-- The state with the settings record taken and the held-back marks cleared (R179), before the evaluation. -/
def State.settingsTaken (s : State) : State :=
  let r := readSettings s.mem
  let edition := s.mem.word settingsAddr
  (({ s with
    settings := r.1, settingsStatus := if r.2 then .appliedClamped else .applied, settingsExamined := edition,
    settingsApplied := edition, permits := { s.permits with groupEnable := r.1.groupMask } } : State).clearHeldBack
    .A).clearHeldBack .B

theorem State.applySettings_eq (s : State) :
    s.applySettings = ((s.settingsTaken.evaluateAndPost).examineQuiet .A).examineQuiet .B := rfl

theorem State.frame_applySettings (s : State) :
    s.applySettings.frame =
      { s.frame with
        settings := s.applySettings.settings, settingsStatus := s.applySettings.settingsStatus,
        settingsExamined := s.applySettings.settingsExamined, settingsApplied := s.applySettings.settingsApplied,
        groupEnable := s.applySettings.permits.groupEnable } := by
  have e : s.applySettings.frame = s.settingsTaken.frame := by
    rw [State.applySettings_eq, State.frame_examineQuiet, State.frame_examineQuiet, State.frame_evaluateAndPost]
  rw [e, Frame.settings_eq e, Frame.groupEnable_eq e, show s.applySettings.settingsStatus = _ from
    congrArg Frame.settingsStatus e, show s.applySettings.settingsExamined = _ from
    congrArg Frame.settingsExamined e, show s.applySettings.settingsApplied = _ from congrArg Frame.settingsApplied e]
  rfl

/-! ### STOP, RESUME and RESTART -/

theorem State.frame_device (s : State) (d : DeviceState) :
    ({ s with device := d } : State).frame = { s.frame with device := d } := rfl

theorem State.frame_stop (s : State) : s.stop.frame = { s.frame with device := s.stop.device } := by
  unfold State.stop
  split
  · rw [State.frame_stopIfIdle, State.frame_evaluateAndPost, State.frame_device, State.frame_mapPositions]
  · rfl

theorem State.frame_resume (s : State) : s.resume.frame = { s.frame with device := s.resume.device } := by
  unfold State.resume
  split
  · rw [State.frame_finish, State.frame_chooseAmong, State.frame_evaluateAndPost, State.frame_device,
      State.frame_mapPositions]
  · rfl

theorem State.frame_restartBlocks (s : State) :
    s.restartBlocks.frame =
      { s.frame with
        misuse := 0, settings := Settings.reset, settingsStatus := .none, settingsExamined := 0, settingsApplied := 0,
        pulses := Vector.replicate 8 0, rules := Vector.replicate 8 Rule.reset, ruleLoads := 0, classes := [],
        keys := s.keys.restart, holds := 0, groupEnable := 0 } := by
  simp [State.restartBlocks, State.frame, MeasUnit.restart]

/-- RESTART, first part: the device is STARTING with the watch queue empty, the permits OFF and posted. -/
def State.restartHalted (s : State) : State := ({ s with device := .starting, watch := [] } : State).evaluateAndPost

/-- The HELD slots, rising. -/
def State.heldSlots (s : State) : List SlotId := allSlots.filter (fun k => decide ((s.slot k).mark = .held))

/-- RESTART, second part: the held tasks have ended and every block has its RESTART values. -/
def State.restartCleared (s : State) : State :=
  (s.restartHalted.completeAllFree s.heldSlots .restarted).restartBlocks.settlePermits

/-- RESTART, third part: every half and the block are posted. -/
def State.restartPosted (s : State) : State := (allPositions.foldl (fun t p => t.postHalf p) s.restartCleared).postBlock

/-- RESTART, before its last posting: the watch queue refilled and the device RUNNING. -/
def State.restartFilled (s : State) : State :=
  { s.restartPosted with watch := s.restartPosted.refill, device := .running }

theorem State.restart_eq {s : State} (h : s.device ≠ .starting) :
    s.restart = s.restartFilled.evaluateAndPost.attend attStarted := if_neg h

theorem State.frame_restartHalted (s : State) :
    s.restartHalted.frame = { s.frame with device := .starting, watch := [] } := State.frame_evaluateAndPost _

theorem State.frame_restartPosted (s : State) :
    s.restartPosted.frame =
      { s.frame with
        device := .starting, watch := [], misuse := 0, settings := Settings.reset, settingsStatus := .none,
        settingsExamined := 0, settingsApplied := 0, pulses := Vector.replicate 8 0,
        rules := Vector.replicate 8 Rule.reset, ruleLoads := 0, classes := [], keys := s.keys.restart, holds := 0,
        groupEnable := 0 } := by
  have e : (s.restartHalted.completeAllFree s.heldSlots .restarted).frame =
      { s.frame with device := .starting, watch := [] } :=
    (State.frame_completeAllFree ..).trans s.frame_restartHalted
  rw [State.restartPosted, State.frame_postBlock, frame_foldl _ (fun s p => State.frame_postHalf s p),
    State.restartCleared, State.frame_settlePermits, State.frame_restartBlocks, e,
    show (s.restartHalted.completeAllFree s.heldSlots .restarted).keys = s.keys from congrArg Frame.keys e]

/-- What of the frame RESTART moves: supply, waiting commands, the start-up clear, the registers the host writes, the
inputs, the calibration records and the host's bytes are kept (R190). -/
theorem State.frame_restart {s : State} (h : s.device ≠ .starting) :
    s.restart.frame =
      { s.frame with
        device := .running, watch := s.restartPosted.refill, misuse := 0, settings := Settings.reset,
        settingsStatus := .none, settingsExamined := 0, settingsApplied := 0, pulses := Vector.replicate 8 0,
        rules := Vector.replicate 8 Rule.reset, ruleLoads := 0, classes := [], keys := s.keys.restart, holds := 0,
        groupEnable := 0 } := by
  have e : s.restartFilled.frame =
      { s.restartPosted.frame with watch := s.restartPosted.refill, device := .running } := rfl
  rw [State.restart_eq h, State.frame_attend, State.frame_evaluateAndPost, e, State.frame_restartPosted]

/-! ### Every command by the table -/

theorem Frame.withKept_of_device {f g : Frame} {d : DeviceState} (h : f = { g with device := d }) : f = f.withKept g := by
  subst h; rfl

theorem Frame.withKept_of_enable {f g : Frame} {e : BitVec 4} (h : f = { g with attentionEnable := e }) :
    f = f.withKept g := by
  subst h; rfl

theorem State.frame_restart_kept (s : State) : s.restart.frame = s.restart.frame.withKept s.frame := by
  by_cases h : s.device = .starting
  · rw [show s.restart = s from if_pos h]; rfl
  · rw [State.frame_restart h]; rfl

theorem State.frame_writeRegister_kept (s : State) (r : BitVec 2) (v : Word16) :
    (s.writeRegister r v).frame = (s.writeRegister r v).frame.withKept s.frame := by
  unfold State.writeRegister State.writeControl
  (repeat' split) <;> first
    | exact Frame.withKept_of_device (d := s.device) rfl
    | exact Frame.withKept_of_device s.frame_stop
    | exact Frame.withKept_of_device s.frame_resume
    | exact s.frame_restart_kept
    | exact Frame.withKept_of_enable (e := v.setWidth 4) rfl

/-- The writes of the host move its bytes, the watch queue and the start-up clear. -/
theorem State.frame_hostWrite (s : State) (a : Nat) (v : Word16) :
    (s.hostWrite a v).frame =
      { s.frame with clearing := (s.hostWrite a v).clearing, watch := (s.hostWrite a v).watch,
                     host := (s.hostWrite a v).mem.hostBytes } := by
  unfold State.hostWrite State.storeDuringClear State.store State.notice
  dsimp only
  (repeat' split) <;> rfl

theorem State.worksTo_finish_of_frame {s t : State} (h : t.frame = s.frame) : s.worksTo t.finish id :=
  State.worksTo_finish (State.worksTo_of_frame h) (fun _ _ => rfl) (fun _ => rfl)

/-- An entry has left the head of the watch queue. -/
theorem State.worksTo_of_withWatch {s t : State} {i : WatchId} {rest : List WatchId} {upd : Frame → Frame}
    (h : s.entryAtHead i rest) (ht : (s.withWatch rest).worksTo t upd) : s.worksTo t upd := by
  obtain ⟨n, d, ht, hd⟩ := ht
  obtain ⟨-, -, hw⟩ := h
  refine ⟨n + 1, d, ?_, hd⟩
  rw [ht, hw]
  rfl

/-- The tail of a step after work that moves the items of a command's table entry. -/
theorem State.worksTo_finish_moves {s u : State} {c : Instr}
    (hd : ∀ t f d, { c.moves t f with device := d } = c.moves t { f with device := d })
    (hk : ∀ t f, (c.moves t f).device = f.device) (hm : ∀ t : State, c.moves t.finish = c.moves t)
    (h : u.frame = c.moves u s.frame) : s.worksTo u.finish (c.moves u.finish) := by
  rw [hm]
  exact State.worksTo_finish (State.worksTo_of_frame h) (hd u) (hk u)

theorem Instr.moves_settings_finish (t : State) :
    Instr.settingsEditionTaken.moves t.finish = Instr.settingsEditionTaken.moves t := by
  have h := t.frame_finish
  funext f
  show ({ f with
    settings := t.finish.settings, settingsStatus := t.finish.settingsStatus,
    settingsExamined := t.finish.settingsExamined, settingsApplied := t.finish.settingsApplied,
    groupEnable := t.finish.permits.groupEnable } : Frame) = _
  rw [State.finish_settings, State.finish_groupEnable,
    show t.finish.settingsStatus = t.settingsStatus from congrArg Frame.settingsStatus h,
    show t.finish.settingsExamined = t.settingsExamined from congrArg Frame.settingsExamined h,
    show t.finish.settingsApplied = t.settingsApplied from congrArg Frame.settingsApplied h]
  rfl

theorem Instr.moves_cancel_finish (t : State) : Instr.cancel.moves t.finish = Instr.cancel.moves t :=
  funext fun f => congrArg (fun k => { f with keys := k }) t.finish_keys

theorem Instr.moves_samplingEnd_finish (xs : Vector Word16 16) (t : State) :
    (Instr.samplingEnd xs).moves t.finish = (Instr.samplingEnd xs).moves t :=
  funext fun f => congrArg (fun c => { f with cal := c }) t.finish_cal

theorem Instr.moves_cyclePulse_finish (k : InputId) (t : State) :
    (Instr.cyclePulse k).moves t.finish = (Instr.cyclePulse k).moves t := by
  have h := t.frame_finish
  funext f
  show ({ f with levels := t.finish.levels, pulses := t.finish.pulses } : Frame) = _
  rw [show t.finish.levels = t.levels from congrArg Frame.levels h,
    show t.finish.pulses = t.pulses from congrArg Frame.pulses h]
  rfl

theorem State.frame_eq_of_inhibitN {s t : State} {v : Bool} (h : t.frame = { s.frame with inhibitN := v }) :
    t.frame = { s.frame with inhibitN := t.inhibitN } := by
  rw [show t.inhibitN = v from congrArg Frame.inhibitN h, h]

theorem State.frame_eq_of_endCheck {s t : State} {d : DeviceState} {b : Bool} {k : KeyStore}
    (h : t.frame = { s.frame with device := d, clearing := b, keys := k }) :
    t.frame = { s.frame with device := t.device, clearing := t.clearing, keys := t.keys } := by
  rw [show t.device = d from congrArg Frame.device h, show t.clearing = b from congrArg Frame.clearing h,
    show t.keys = k from congrArg Frame.keys h, h]

theorem State.frame_eq_of_pulse {s t u : State} (h : t.frame = u.frame)
    (hu : u.frame = { s.frame with levels := u.levels, pulses := u.pulses }) :
    t.frame = { s.frame with levels := t.levels, pulses := t.pulses } := by
  rw [show t.levels = u.levels from congrArg Frame.levels h, show t.pulses = u.pulses from congrArg Frame.pulses h, h, hu]

/-- The end of the start-up check moves the device state, the clear and the key store (R189 step 4). -/
theorem State.frame_endCheck (s : State) (d : BitVec 16) :
    (s.endCheck d).frame = { s.frame with device := .running, clearing := false, keys := s.keys.check d } := by
  rw [State.endCheck, State.frame_attend, State.frame_evaluateAndPost]
  split
  · rfl
  · rw [State.frame_attend]; rfl

/-- A command that does nothing, or moves nothing of the frame. -/
theorem State.worksTo_ite {s t : State} {c : Prop} [Decidable c] (h : s.worksTo t id) :
    s.worksTo (if c then t else s) id := by
  split
  · exact h
  · exact State.worksTo_of_frame rfl

section Commands

variable {s t : State}

theorem worksTo_configEditionTaken (h : execConfigEditionTaken s = .next t) : s.worksTo t id := by
  unfold execConfigEditionTaken at h
  rcases s.takeEntry_cases with e | ⟨i, rest, head, e⟩
  · simp only [e] at h; obtain rfl := Host.Outcome.next.inj h; exact State.worksTo_of_frame rfl
  · simp only [e] at h
    split at h
    · obtain rfl := Host.Outcome.next.inj h; exact State.worksTo_of_frame rfl
    · obtain rfl := Host.Outcome.next.inj h
      exact State.worksTo_of_withWatch head (State.worksTo_finish_of_frame (by simp))

theorem worksTo_settingsEditionTaken (h : execSettingsEditionTaken s = .next t) :
    s.worksTo t (Instr.settingsEditionTaken.moves t) := by
  unfold execSettingsEditionTaken at h
  rcases s.takeEntry_cases with e | ⟨i, rest, head, e⟩
  · simp only [e] at h; obtain rfl := Host.Outcome.next.inj h; exact State.worksTo_of_frame rfl
  · simp only [e] at h
    obtain rfl := Host.Outcome.next.inj h
    split
    · exact State.worksTo_of_withWatch head (State.worksTo_finish_moves (c := .settingsEditionTaken) (fun _ _ _ => rfl)
        (fun _ _ => rfl) Instr.moves_settings_finish (State.frame_applySettings _))
    · exact State.worksTo_of_frame rfl

theorem worksTo_taskBadKind (h : execTaskBadKind s = .next t) : s.worksTo t id := by
  unfold execTaskBadKind at h
  rcases s.takeReady_cases with e | ⟨k, rest, head, e⟩
  · simp only [e] at h; obtain rfl := Host.Outcome.next.inj h; exact State.worksTo_of_frame rfl
  · simp only [e] at h
    obtain rfl := Host.Outcome.next.inj h
    split
    · exact State.worksTo_of_frame rfl
    · exact State.worksTo_of_taken head (State.worksTo_of_frame (by simp))

theorem worksTo_cancel (h : execCancel s = .next t) : s.worksTo t (Instr.cancel.moves t) := by
  unfold execCancel at h
  rcases s.takeOwner_cases with e | ⟨k, rest, head, e⟩
  · simp only [e] at h; obtain rfl := Host.Outcome.next.inj h; exact State.worksTo_of_frame rfl
  · simp only [e] at h
    obtain rfl := Host.Outcome.next.inj h
    split
    · exact State.worksTo_of_withWatch head (State.worksTo_finish_moves (c := .cancel) (fun _ _ _ => rfl)
        (fun _ _ => rfl) Instr.moves_cancel_finish
        (State.frame_cancelEntry _ _))
    · exact State.worksTo_of_frame rfl

theorem worksTo_ownerWordMisuse (h : execOwnerWordMisuse s = .next t) :
    s.worksTo t (Instr.ownerWordMisuse.moves t) := by
  unfold execOwnerWordMisuse at h
  rcases s.takeOwner_cases with e | ⟨k, rest, head, e⟩
  · simp only [e] at h; obtain rfl := Host.Outcome.next.inj h; exact State.worksTo_of_frame rfl
  · simp only [e] at h
    obtain rfl := Host.Outcome.next.inj h
    split
    · exact State.worksTo_of_withWatch head (State.worksTo_of_frame (State.frame_misuseEntry _ _))
    · exact State.worksTo_of_frame rfl

theorem worksTo_keyTaskServe (h : execKeyTaskServe s = .next t) : s.worksTo t (Instr.keyTaskServe.moves t) := by
  unfold execKeyTaskServe at h
  split at h
  · obtain rfl := Host.Outcome.next.inj h; exact State.worksTo_of_frame rfl
  · obtain rfl := Host.Outcome.next.inj h
    split
    · exact State.worksTo_of_frame (State.frame_serveKey _ _)
    · exact State.worksTo_of_frame rfl

theorem worksTo_keyWriteEnd (h : execKeyWriteEnd s = .next t) : s.worksTo t (Instr.keyWriteEnd.moves t) := by
  unfold execKeyWriteEnd at h
  split at h
  · obtain rfl := Host.Outcome.next.inj h; exact State.worksTo_of_frame rfl
  · obtain rfl := Host.Outcome.next.inj h
    split
    · exact State.worksTo_of_frame (State.frame_endKeyWrite _ _)
    · exact State.worksTo_of_frame rfl

/-- The end of a transaction: its hand-over, the QUIET conditions, the tail of the step. -/
theorem State.worksTo_endTransaction (s : State) (l : LineId) (x : LineCtl) (r : Transaction) (o : LineResult) :
    s.worksTo (s.endTransaction l x r o) id := by
  have hc : s.worksTo (((s.setLine l x).touchBlock).conclude r o) id :=
    State.worksTo_of_left (u := (s.setLine l x).touchBlock) (by simp)
      (State.worksTo_of_framePast (State.framePast_conclude _ r o))
  exact State.worksTo_finish (State.worksTo_of_right hc (State.frame_examineQuiet _ l)) (fun _ _ => rfl) (fun _ => rfl)

theorem worksTo_lineTransactionStart {l : LineId} (h : execLineTransactionStart l s = .next t) : s.worksTo t id := by
  unfold execLineTransactionStart at h
  split at h
  · obtain rfl := Host.Outcome.next.inj h; exact State.worksTo_of_frame rfl
  · obtain rfl := Host.Outcome.next.inj h; exact State.worksTo_ite (State.worksTo_of_frame (by simp))

theorem worksTo_readbackFailure {l : LineId} {bit : Nat} {level : Bool}
    (h : execReadbackFailure l bit level s = .next t) : s.worksTo t id := by
  unfold execReadbackFailure at h
  split at h
  · obtain rfl := Host.Outcome.next.inj h; exact State.worksTo_of_frame rfl
  · obtain rfl := Host.Outcome.next.inj h; exact State.worksTo_ite (State.worksTo_of_frame (by simp))

theorem worksTo_replyAttemptError {l : LineId} {es : List RxEdge} (h : execReplyAttemptError l es s = .next t) :
    s.worksTo t id := by
  unfold execReplyAttemptError at h
  split at h
  · obtain rfl := Host.Outcome.next.inj h; exact State.worksTo_ite (State.worksTo_of_frame (by simp))
  · obtain rfl := Host.Outcome.next.inj h; exact State.worksTo_of_frame rfl
  · obtain rfl := Host.Outcome.next.inj h; exact State.worksTo_of_frame rfl

theorem worksTo_replyComplete {l : LineId} {es : List RxEdge} (h : execReplyComplete l es s = .next t) :
    s.worksTo t id := by
  unfold execReplyComplete at h
  split at h
  · obtain rfl := Host.Outcome.next.inj h; exact State.worksTo_ite (State.worksTo_endTransaction ..)
  · obtain rfl := Host.Outcome.next.inj h; exact State.worksTo_of_frame rfl
  · obtain rfl := Host.Outcome.next.inj h; exact State.worksTo_of_frame rfl
  · obtain rfl := Host.Outcome.next.inj h; exact State.worksTo_of_frame rfl

theorem worksTo_lineRestEnd {l : LineId} (h : execLineRestEnd l s = .next t) : s.worksTo t id := by
  have hself : s.worksTo s id := State.worksTo_of_frame rfl
  unfold execLineRestEnd at h
  obtain rfl := Host.Outcome.next.inj h
  refine State.worksTo_ite ?_
  split
  case h_1 => exact hself
  case h_2 =>
    unfold State.restAfterCall
    dsimp only
    split
    · exact State.worksTo_of_frame (by simp)
    · exact State.worksTo_endTransaction ..
  case h_3 => exact hself
  case h_4 =>
    unfold State.restAfterQuiet
    dsimp only
    split
    · exact State.worksTo_of_frame (by simp)
    · exact State.worksTo_finish_of_frame (by simp)
  case h_5 =>
    unfold State.restAfterWake
    dsimp only
    split
    · exact State.worksTo_of_frame (by simp)
    · refine State.worksTo_finish_of_frame ?_
      rw [State.frame_examineQuiet, State.frame_endResets]
      split <;> simp

theorem worksTo_lineStuckEntry {l : LineId} (h : execLineStuckEntry l s = .next t) : s.worksTo t id := by
  unfold execLineStuckEntry at h
  obtain rfl := Host.Outcome.next.inj h
  exact State.worksTo_ite (State.worksTo_finish_of_frame (by simp))

theorem worksTo_measurementStart (h : execMeasurementStart s = .next t) : s.worksTo t id := by
  unfold execMeasurementStart at h
  split at h
  · obtain rfl := Host.Outcome.next.inj h; exact State.worksTo_of_frame rfl
  · obtain rfl := Host.Outcome.next.inj h; exact State.worksTo_ite (State.worksTo_of_frame rfl)

theorem worksTo_samplingEnd {xs : Vector Word16 16} (h : execSamplingEnd xs s = .next t) :
    s.worksTo t ((Instr.samplingEnd xs).moves t) := by
  unfold execSamplingEnd at h
  split at h
  · obtain rfl := Host.Outcome.next.inj h; exact State.worksTo_of_frame rfl
  · obtain rfl := Host.Outcome.next.inj h
    split
    · refine State.worksTo_finish_moves (c := .samplingEnd xs) (fun _ _ _ => rfl) (fun _ _ => rfl)
        (Instr.moves_samplingEnd_finish xs) ?_
      refine (State.frame_modMeasKeep _ _ rfl).trans ?_
      split
      · exact State.frame_handMeasurement _ _ _
      · exact State.frame_eq_of_cal (c := s.meas.cal) (State.frame_discardMeasurement _ _)
    · exact State.worksTo_of_frame rfl

theorem worksTo_cyclePulse {k : InputId} (h : execCyclePulse k s = .next t) :
    s.worksTo t ((Instr.cyclePulse k).moves t) := by
  unfold execCyclePulse at h
  obtain rfl := Host.Outcome.next.inj h
  split
  · exact State.worksTo_finish_moves (c := .cyclePulse k) (fun _ _ _ => rfl) (fun _ _ => rfl)
      (Instr.moves_cyclePulse_finish k)
      (State.frame_eq_of_pulse (State.frame_chooseAmong _ _) (State.frame_countPulse _ _))
  · exact State.worksTo_of_frame rfl

theorem worksTo_startupCheckEnd {d : BitVec 16} (h : execStartupCheckEnd d s = .next t) :
    s.worksTo t ((Instr.startupCheckEnd d).moves t) := by
  unfold execStartupCheckEnd at h
  obtain rfl := Host.Outcome.next.inj h
  refine State.worksTo_of_frame ?_
  split
  · exact State.frame_eq_of_endCheck (s.frame_endCheck d)
  · rfl

end Commands

/-- What each command does to the frame: work of the device, and the items of its table entry. -/
theorem exec_worksTo {c : Instr} {s t : State} (h : exec c s = .next t) : s.worksTo t (c.moves t) := by
  cases c with
  | powerOn => obtain rfl := Host.Outcome.next.inj h; exact State.worksTo_of_frame (by split <;> rfl)
  | resetNAssert => obtain rfl := Host.Outcome.next.inj h; exact State.worksTo_of_frame (by split <;> rfl)
  | resetNRelease => obtain rfl := Host.Outcome.next.inj h; exact State.worksTo_of_frame (by split <;> rfl)
  | powerLoss => obtain rfl := Host.Outcome.next.inj h; exact State.worksTo_of_frame (by split <;> rfl)
  | startupCheckEnd => exact worksTo_startupCheckEnd h
  | restart =>
    obtain rfl := Host.Outcome.next.inj h
    exact State.worksTo_of_frame (by split; exact s.frame_restart_kept; exact rfl)
  | stop => obtain rfl := Host.Outcome.next.inj h; exact State.worksTo_of_frame (by split; exact s.frame_stop; exact rfl)
  | resume =>
    obtain rfl := Host.Outcome.next.inj h
    exact State.worksTo_of_frame (by split; exact s.frame_resume; exact rfl)
  | attentionWrite => obtain rfl := Host.Outcome.next.inj h; exact State.worksTo_of_frame (by split <;> rfl)
  | attentionEnableWrite => obtain rfl := Host.Outcome.next.inj h; exact State.worksTo_of_frame (by split <;> rfl)
  | registerWriteOther r v =>
    obtain rfl := Host.Outcome.next.inj h
    exact State.worksTo_of_frame (by split; exact s.frame_writeRegister_kept r v; exact rfl)
  | hostWordWrite =>
    obtain rfl := Host.Outcome.next.inj h
    exact State.worksTo_of_frame (by split; exact s.frame_hostWrite _ _; exact rfl)
  | watchedWordWrite =>
    obtain rfl := Host.Outcome.next.inj h
    exact State.worksTo_of_frame (by split; exact s.frame_hostWrite _ _; exact rfl)
  | configEditionTaken => exact worksTo_configEditionTaken h
  | settingsEditionTaken => exact worksTo_settingsEditionTaken h
  | taskBadKind => exact worksTo_taskBadKind h
  | cancel => exact worksTo_cancel h
  | ownerWordMisuse => exact worksTo_ownerWordMisuse h
  | inspect =>
    obtain rfl := Host.Outcome.next.inj h
    exact State.worksTo_runTask_finish (fun k u => State.frame_inspectTask u k)
  | tagRead =>
    obtain rfl := Host.Outcome.next.inj h
    exact State.worksTo_runTask_finish (fun k u => State.frame_tagReadTask u k)
  | tagWrite =>
    obtain rfl := Host.Outcome.next.inj h
    exact State.worksTo_runTask_finish (fun k u => State.frame_tagWriteTask u k)
  | lineReset =>
    obtain rfl := Host.Outcome.next.inj h
    exact State.worksTo_runTask_finish (fun k u => State.frame_lineResetTask u k)
  | calLoad =>
    obtain rfl := Host.Outcome.next.inj h
    exact State.worksTo_runTask_frame (upd := Instr.calLoad.moves) rfl (fun k u => State.frame_calLoadTask u k)
  | calibrate =>
    obtain rfl := Host.Outcome.next.inj h
    exact State.worksTo_runTask_frame (upd := fun _ => id) rfl (fun k u => State.frame_calibrateTask u k)
  | usageCommit =>
    obtain rfl := Host.Outcome.next.inj h
    exact State.worksTo_runTask_finish (fun k u => State.frame_usageCommitTask u k)
  | retiredImport =>
    obtain rfl := Host.Outcome.next.inj h
    exact State.worksTo_runTask_frame (upd := fun _ => id) rfl (fun k u => State.frame_retiredImportTask u k)
  | retiredExport =>
    obtain rfl := Host.Outcome.next.inj h
    exact State.worksTo_runTask_frame (upd := Instr.retiredExport.moves) rfl
      (fun k u => State.frame_retiredExportTask u k)
  | retiredRemove =>
    obtain rfl := Host.Outcome.next.inj h
    exact State.worksTo_runTask_finish (fun k u => State.frame_retiredRemoveTask u k)
  | release =>
    obtain rfl := Host.Outcome.next.inj h
    exact State.worksTo_runTask_finish (fun k u => State.frame_releaseTask u k)
  | rulesLoad =>
    obtain rfl := Host.Outcome.next.inj h
    exact State.worksTo_runTask_frame (upd := Instr.rulesLoad.moves) rfl (fun k u => State.frame_rulesLoadTask u k)
  | permitHold =>
    obtain rfl := Host.Outcome.next.inj h
    exact State.worksTo_runTask_frame (upd := Instr.permitHold.moves) rfl (fun k u => State.frame_permitHoldTask u k)
  | permitFree =>
    obtain rfl := Host.Outcome.next.inj h
    exact State.worksTo_runTask_frame (upd := Instr.permitFree.moves) rfl (fun k u => State.frame_permitFreeTask u k)
  | classLoad =>
    obtain rfl := Host.Outcome.next.inj h
    exact State.worksTo_runTask_frame (upd := Instr.classLoad.moves) rfl (fun k u => State.frame_classLoadTask u k)
  | classDrop =>
    obtain rfl := Host.Outcome.next.inj h
    exact State.worksTo_runTask_frame (upd := Instr.classDrop.moves) rfl (fun k u => State.frame_classDropTask u k)
  | keyLoad =>
    obtain rfl := Host.Outcome.next.inj h
    exact State.worksTo_runTask_frame (upd := Instr.keyLoad.moves) rfl (fun k u => State.frame_keyLoadTask u k)
  | keyErase =>
    obtain rfl := Host.Outcome.next.inj h
    exact State.worksTo_runTask_frame (upd := Instr.keyErase.moves) rfl (fun k u => State.frame_keyEraseTask u k)
  | keysUnlock =>
    obtain rfl := Host.Outcome.next.inj h
    exact State.worksTo_runTask_frame (upd := Instr.keysUnlock.moves) rfl (fun k u => State.frame_queueKey u k _)
  | keysLock =>
    obtain rfl := Host.Outcome.next.inj h
    exact State.worksTo_runTask_frame (upd := Instr.keysLock.moves) rfl (fun k u => State.frame_queueKey u k _)
  | keyTaskServe => exact worksTo_keyTaskServe h
  | keyWriteEnd => exact worksTo_keyWriteEnd h
  | lineTransactionStart => exact worksTo_lineTransactionStart h
  | readbackFailure => exact worksTo_readbackFailure h
  | callEnd => obtain rfl := Host.Outcome.next.inj h; exact State.worksTo_ite (State.worksTo_of_frame (by simp))
  | replyWindowExpiry =>
    obtain rfl := Host.Outcome.next.inj h
    exact State.worksTo_ite (State.worksTo_of_frame (by simp))
  | replyStart => obtain rfl := Host.Outcome.next.inj h; exact State.worksTo_ite (State.worksTo_of_frame (by simp))
  | replyAttemptError => exact worksTo_replyAttemptError h
  | replyComplete => exact worksTo_replyComplete h
  | lineRestEnd => exact worksTo_lineRestEnd h
  | quietSent =>
    obtain rfl := Host.Outcome.next.inj h
    exact State.worksTo_ite (State.worksTo_finish_of_frame (by simp))
  | wakeSent => obtain rfl := Host.Outcome.next.inj h; exact State.worksTo_ite (State.worksTo_of_frame (by simp))
  | lineStuckEntry => exact worksTo_lineStuckEntry h
  | lineStuckRelease =>
    obtain rfl := Host.Outcome.next.inj h
    exact State.worksTo_ite (State.worksTo_of_frame (by simp))
  | measurementStart => exact worksTo_measurementStart h
  | settlingEnd => obtain rfl := Host.Outcome.next.inj h; exact State.worksTo_ite (State.worksTo_of_frame rfl)
  | samplingEnd => exact worksTo_samplingEnd h
  | intervalTimerExpiry =>
    obtain rfl := Host.Outcome.next.inj h
    exact State.worksTo_ite (State.worksTo_finish_of_frame (by simp))
  | cyclePulse => exact worksTo_cyclePulse h
  | inhibitNChange level =>
    obtain rfl := Host.Outcome.next.inj h
    refine State.worksTo_of_frame ?_
    split
    · exact State.frame_eq_of_inhibitN (v := level) (State.frame_evaluatePermits _)
    · rfl
  | stateHalfPostingDelay =>
    obtain rfl := Host.Outcome.next.inj h
    exact State.worksTo_ite (State.worksTo_of_frame (by simp))
  | deviceBlockPostingDelay =>
    obtain rfl := Host.Outcome.next.inj h
    exact State.worksTo_ite (State.worksTo_of_frame (by simp))
  | cycleInputAcceptedLow => obtain rfl := Host.Outcome.next.inj h; exact State.worksTo_of_frame (by split <;> rfl)

/-! ### Items of the frame after a command -/

section Items

variable {c : Instr} {s t : State}

/-- The waiting commands are left alone. -/
theorem exec_pending (h : exec c s = .next t) : t.pending = s.pending := by
  obtain ⟨n, d, hf, -⟩ := exec_worksTo h
  have e : ∀ f, (c.moves t f).pending = f.pending := by cases c <;> exact fun _ => rfl
  exact (congrArg Frame.pending hf).trans (e _)

/-- The supply changes with the supply and reset commands alone. -/
theorem exec_power (hc : c.isSupply = false) (h : exec c s = .next t) : t.power = s.power := by
  obtain ⟨n, d, hf, -⟩ := exec_worksTo h
  have e : ∀ f, (c.moves t f).power = f.power := by
    cases c <;> first | exact fun _ => rfl | exact absurd hc Bool.noConfusion
  exact (congrArg Frame.power hf).trans (e _)

/-- Table 1 of Exchange Memory: who writes a host byte. -/
theorem exec_hostBytes (hc : writesHostBytes c = false) (h : exec c s = .next t) :
    t.mem.hostBytes = s.mem.hostBytes := by
  obtain ⟨n, d, hf, -⟩ := exec_worksTo h
  have e : ∀ f, (c.moves t f).host = f.host := by
    cases c <;> first | exact fun _ => rfl | exact absurd hc Bool.noConfusion
  exact (congrArg Frame.host hf).trans (e _)


end Items

/-- Settles O2: every command answers a next state, and the table moves the waiting commands nowhere. -/
theorem commandsAnswerNext : Obligations.CommandsAnswerNext := by
  intro c s
  obtain ⟨t, h⟩ := exec_answers c s
  exact ⟨t, h, exec_pending h⟩

/-- Settles O1: `step` by the cases of its queue. -/
theorem stepRunsFrontCommand : Obligations.StepRunsFrontCommand := by
  refine ⟨fun c rest s => rfl, fun s h => ?_⟩
  simp only [step, h]

/-- Settles O10: the table gives the host's bytes to the commands named alone. -/
theorem hostBytesKept : Obligations.HostBytesKept :=
  fun _ _ _ _ hc ha h => read_of_hostBytes (exec_hostBytes hc h) ha

/-! ### The key store after a command -/

/-- What a command other than supply and reset can do to the key store. -/
inductive KeyStep (k : KeyStore) : KeyStore → Prop where
  | same : KeyStep k k
  | queued (q : List KeyTask) : KeyStep k { k with queue := q }
  | unlocked (q : List KeyTask) (v : Key) : KeyStep k (KeyStore.unlock { k with queue := q } v).1
  | locked (q : List KeyTask) : KeyStep k (KeyStore.lock { k with queue := q }).1
  | writing (q : List KeyTask) (i : KeySlotId) (w : KeyWrite) (h : k.locked = false) :
      KeyStep k { k with queue := q, slots := k.slots.set i.val .invalid, writing := some w }
  | erased (q : List KeyTask) (i : KeySlotId) (h : k.locked = false) :
      KeyStep k { k with queue := q, slots := k.slots.set i.val .empty }
  | written (w : KeyWrite) : KeyStep k (k.endWrite w)
  | checked (d : BitVec 16) : KeyStep k (k.check d)
  | restarted : KeyStep k k.restart

theorem KeyStep.of_eq {k l : KeyStore} (h : l = k) : KeyStep k l := h ▸ KeyStep.same

theorem State.queueKey_keys (s : State) (k : SlotId) (op : KeyOp) :
    (s.queueKey k op).keys = { s.keys with queue := s.keys.queue ++ [{ slot := k, op := op }] } := rfl

/-- A task that moves the key store runs on the store as it stood. -/
theorem KeyStep.of_runTask {s : State} {kind : Word16} {work : SlotId → State → State}
    (hw : ∀ k u, KeyStep u.keys (work k u).keys) : KeyStep s.keys (s.runTask kind work).keys := by
  rcases s.runTask_cases kind work with e | ⟨k, rest, -, e⟩
  · rw [e]; exact .same
  · rw [e]; exact hw k (s.taken k rest)

theorem State.serveKey_keyStep (s : State) (rest : List KeyTask) (t : KeyTask) :
    KeyStep s.keys ((s.setKeys { s.keys with queue := rest }).serveKey t).keys := by
  unfold State.serveKey
  split
  · exact .unlocked rest _
  · exact .locked rest
  · unfold State.serveLoad
    split
    · exact .queued rest
    · exact .writing rest _ _ (Bool.not_eq_true _ ▸ ‹_›)
  · unfold State.serveErase
    split
    · exact .queued rest
    · exact .erased rest _ (Bool.not_eq_true _ ▸ ‹_›)

theorem State.cancelKeyTask_keyStep (s : State) (k : SlotId) : KeyStep s.keys (s.cancelKeyTask k).keys := by
  unfold State.cancelKeyTask
  split
  · exact .queued _
  · exact .same

theorem State.handCancel_keyStep (s : State) (k : SlotId) : KeyStep s.keys (s.handCancel k).keys := by
  have keep : ∀ u : State, u.frame = (s.setSlot k { s.slot k with cancelHanded := true }).frame →
      KeyStep s.keys u.keys := fun u h => KeyStep.of_eq (Frame.keys_eq h)
  unfold State.handCancel
  dsimp only
  (repeat' split) <;> first
    | exact State.cancelKeyTask_keyStep (s.setSlot k { s.slot k with cancelHanded := true }) k
    | exact keep _ (by simp only [State.frame_cancelInspect, State.frame_cancelRead, State.frame_cancelWrite,
        State.frame_cancelCalibrate, State.frame_cancelCommit])

theorem State.cancelEntry_keyStep (s : State) (k : SlotId) : KeyStep s.keys (s.cancelEntry k).keys := by
  unfold State.cancelEntry
  split
  · split
    · exact .same
    · exact s.handCancel_keyStep k
  · exact .same
  · exact .same

theorem State.restart_keyStep (s : State) : KeyStep s.keys s.restart.keys := by
  by_cases h : s.device = .starting
  · exact KeyStep.of_eq (by rw [show s.restart = s from if_pos h])
  · rw [show s.restart.keys = s.keys.restart from congrArg Frame.keys (State.frame_restart h)]
    exact .restarted

theorem State.writeRegister_keyStep (s : State) (r : BitVec 2) (v : Word16) :
    KeyStep s.keys (s.writeRegister r v).keys := by
  unfold State.writeRegister State.writeControl
  (repeat' split) <;> first
    | exact .same
    | exact s.restart_keyStep
    | exact .of_eq (congrArg Frame.keys s.frame_stop)
    | exact .of_eq (congrArg Frame.keys s.frame_resume)

/-- What a command other than supply and reset does to the key store: nothing, for a command whose table entry leaves
it out. -/
theorem exec_keyStep {c : Instr} {s t : State} (hc : c.isSupply = false) (h : exec c s = .next t) :
    KeyStep s.keys t.keys := by
  obtain ⟨n, d, hf, -⟩ := exec_worksTo h
  have keep : (∀ f, (c.moves t f).keys = f.keys) → KeyStep s.keys t.keys := fun e =>
    .of_eq ((congrArg Frame.keys hf).trans (e _))
  cases c with
  | powerOn | resetNAssert | resetNRelease | powerLoss => exact absurd hc Bool.noConfusion
  | startupCheckEnd d =>
    obtain rfl := Host.Outcome.next.inj h
    split
    · rw [show (s.endCheck d).keys = _ from congrArg Frame.keys (s.frame_endCheck d)]; exact .checked d
    · exact .same
  | restart =>
    obtain rfl := Host.Outcome.next.inj h
    split
    · exact s.restart_keyStep
    · exact .same
  | registerWriteOther r v =>
    obtain rfl := Host.Outcome.next.inj h
    split
    · exact s.writeRegister_keyStep r v
    · exact .same
  | cancel =>
    change execCancel s = .next t at h
    unfold execCancel at h
    rcases s.takeOwner_cases with e | ⟨k, rest, -, e⟩
    · simp only [e] at h; obtain rfl := Host.Outcome.next.inj h; exact .same
    · simp only [e] at h
      obtain rfl := Host.Outcome.next.inj h
      split
      · rw [State.finish_keys]; exact (s.withWatch rest).cancelEntry_keyStep k
      · exact .same
  | keyLoad =>
    obtain rfl := Host.Outcome.next.inj h
    refine KeyStep.of_runTask fun k u => ?_
    unfold State.keyLoadTask
    split
    · exact .same
    · exact .queued _
  | keyErase =>
    obtain rfl := Host.Outcome.next.inj h
    refine KeyStep.of_runTask fun k u => ?_
    unfold State.keyEraseTask
    split
    · exact .same
    · exact .queued _
  | keysUnlock => obtain rfl := Host.Outcome.next.inj h; exact KeyStep.of_runTask fun k u => .queued _
  | keysLock => obtain rfl := Host.Outcome.next.inj h; exact KeyStep.of_runTask fun k u => .queued _
  | keyTaskServe =>
    change execKeyTaskServe s = .next t at h
    unfold execKeyTaskServe at h
    split at h
    · obtain rfl := Host.Outcome.next.inj h; exact .same
    · obtain rfl := Host.Outcome.next.inj h
      split
      · exact s.serveKey_keyStep _ _
      · exact .same
  | keyWriteEnd =>
    change execKeyWriteEnd s = .next t at h
    unfold execKeyWriteEnd at h
    split at h
    · obtain rfl := Host.Outcome.next.inj h; exact .same
    · rename_i w _
      obtain rfl := Host.Outcome.next.inj h
      split
      · have e : (s.endKeyWrite w).keys = s.keys.endWrite w := by unfold State.endKeyWrite; dsimp only; split <;> rfl
        rw [e]; exact .written w
      · exact .same
  | _ => exact keep fun _ => rfl

/-- R166, R169: the attempts left lie in their range and are 0 only in a LOCKED store. -/
def KeyStore.attemptsAgree (k : KeyStore) : Prop := k.attempts ≤ 3 ∧ (k.attempts = 0 → k.locked = true)

/-- R166: the store is LOCKED only with a VALID slot 0. -/
def KeyStore.lockAgrees (k : KeyStore) : Prop := k.locked = true → (k.slots[0]).isValid = true

theorem KeyStore.attemptsAgree_setLock (k : KeyStore) : k.setLock.attemptsAgree :=
  ⟨Nat.le_refl 3, fun h => absurd h (by decide : (3 : Nat) ≠ 0)⟩

theorem KeyStore.lockAgrees_setLock (k : KeyStore) : k.setLock.lockAgrees := fun h => h

theorem KeyStore.isValid_of_storeKey {k : KeyStore} {v : Key} (h : k.storeKey = some v) :
    (k.slots[0]).isValid = true := by
  unfold KeyStore.storeKey at h
  split at h
  · cases h
  · rename_i e; rw [e]; rfl
  · cases h

theorem KeyStore.attemptsAgree_unlock {k : KeyStore} (v : Key) (h : k.attemptsAgree) :
    (k.unlock v).1.attemptsAgree := by
  unfold KeyStore.unlock
  (repeat' split)
  · exact h
  · exact h
  · exact ⟨Nat.le_refl 3, fun e => absurd e (by decide : (3 : Nat) ≠ 0)⟩
  · exact ⟨Nat.le_trans (Nat.sub_le _ _) h.1, fun _ => rfl⟩

theorem KeyStore.lockAgrees_unlock {k : KeyStore} (v : Key) (h : k.lockAgrees) : (k.unlock v).1.lockAgrees := by
  unfold KeyStore.unlock
  (repeat' split)
  · exact h
  · exact h
  · exact fun e => absurd e Bool.noConfusion
  · exact fun _ => KeyStore.isValid_of_storeKey (k := k) ‹_›

theorem KeyStore.attemptsAgree_lock {k : KeyStore} (h : k.attemptsAgree) : k.lock.1.attemptsAgree := by
  unfold KeyStore.lock
  split
  · exact h
  · exact ⟨h.1, fun _ => rfl⟩

theorem KeyStore.lockAgrees_lock {k : KeyStore} (h : k.lockAgrees) : k.lock.1.lockAgrees := by
  unfold KeyStore.lock
  split
  · exact h
  · exact fun _ => KeyStore.isValid_of_storeKey (k := k) ‹_›

theorem KeyStore.lockAgrees_endWrite {k : KeyStore} (w : KeyWrite) (h : k.lockAgrees) : (k.endWrite w).lockAgrees := by
  intro e
  show ((k.slots.set w.target.val (.valid w.key))[0]).isValid = true
  by_cases hw : w.target.val = 0
  · simp [hw, KeySlot.isValid]
  · rw [Vector.getElem_set_ne _ _ hw]; exact h e

theorem KeyStep.attemptsAgree {k l : KeyStore} (h : KeyStep k l) (hk : k.attemptsAgree) : l.attemptsAgree := by
  cases h with
  | same | queued | writing | erased | written => exact hk
  | unlocked q v => exact KeyStore.attemptsAgree_unlock v hk
  | locked q => exact KeyStore.attemptsAgree_lock hk
  | checked d => exact KeyStore.attemptsAgree_setLock _
  | restarted => exact KeyStore.attemptsAgree_setLock _

theorem KeyStep.lockAgrees {k l : KeyStore} (h : KeyStep k l) (hk : k.lockAgrees) : l.lockAgrees := by
  cases h with
  | same | queued => exact hk
  | unlocked q v => exact KeyStore.lockAgrees_unlock v hk
  | locked q => exact KeyStore.lockAgrees_lock hk
  | writing q i w hl | erased q i hl => exact fun e => absurd (hl.symm.trans e) Bool.noConfusion
  | written w => exact KeyStore.lockAgrees_endWrite w hk
  | checked d => exact KeyStore.lockAgrees_setLock _
  | restarted => exact KeyStore.lockAgrees_setLock _

/-- STARTING is left by the end of the start-up check alone (R189), the supply and reset apart. -/
theorem exec_starting {c : Instr} {s t : State} (hc : c.isSupply = false) (hd : ∀ d, c ≠ .startupCheckEnd d)
    (hs : s.device = .starting) (h : exec c s = .next t) : t.device = .starting := by
  have stop : s.stop = s := if_neg (by simp [hs])
  have resume : s.resume = s := if_neg (by simp [hs])
  have restart : s.restart = s := if_pos hs
  obtain ⟨n, d, hf, hst⟩ := exec_worksTo h
  have keep : (∀ f, (c.moves t f).device = f.device) → t.device = .starting := fun e => by
    rw [show t.device = d from (congrArg Frame.device hf).trans (e _)]
    rcases hst with e | ⟨e, -⟩
    · rw [e, hs]
    · rw [hs] at e; cases e
  cases c with
  | powerOn | resetNAssert | resetNRelease | powerLoss => exact absurd hc Bool.noConfusion
  | startupCheckEnd d => exact absurd rfl (hd d)
  | restart => obtain rfl := Host.Outcome.next.inj h; rw [restart, ite_self]; exact hs
  | stop => obtain rfl := Host.Outcome.next.inj h; rw [stop, ite_self]; exact hs
  | resume => obtain rfl := Host.Outcome.next.inj h; rw [resume, ite_self]; exact hs
  | registerWriteOther r v =>
    obtain rfl := Host.Outcome.next.inj h
    unfold State.writeRegister State.writeControl
    simp only [stop, resume, restart, ite_self]
    (repeat' split) <;> exact hs
  | _ => exact keep fun _ => rfl

theorem KeyStore.attemptsAgree_halt (k : KeyStore) : k.halt.attemptsAgree :=
  ⟨Nat.le_refl 3, fun _ => rfl⟩

/-- The supply and reset leave a sound store: in STARTING nothing is asked of slot 0. -/
theorem lockSound_of_supply {c : Instr} {s t : State} (hc : c.isSupply = true) (hs : s.lockSound)
    (h : exec c s = .next t) : t.lockSound := by
  have hold : ∀ p, (s.holdReset p).lockSound := fun p =>
    ⟨s.keys.attemptsAgree_halt.1, s.keys.attemptsAgree_halt.2, fun e => absurd rfl e⟩
  have start : ∀ i cyc, (s.beginStartup i cyc).lockSound := fun i cyc =>
    ⟨hs.1, hs.2.1, fun e => absurd rfl e⟩
  cases c <;> first
    | exact absurd hc Bool.noConfusion
    | (obtain rfl := Host.Outcome.next.inj h; split <;> first | exact hs | exact hold _ | exact start _ _)

/-- A command other than supply and reset keeps the store sound. -/
theorem exec_lockSound {c : Instr} {s t : State} (hc : c.isSupply = false) (hs : s.lockSound)
    (h : exec c s = .next t) : t.lockSound := by
  obtain ⟨h3, h0, hl⟩ := hs
  have hk := exec_keyStep hc h
  obtain ⟨a3, a0⟩ := hk.attemptsAgree ⟨h3, h0⟩
  refine ⟨a3, a0, fun hd => ?_⟩
  by_cases hst : s.device = .starting
  · obtain ⟨d, rfl⟩ : ∃ d, c = .startupCheckEnd d :=
      Classical.byContradiction fun e => hd (exec_starting hc (fun d hcd => e ⟨d, hcd⟩) hst h)
    obtain rfl := Host.Outcome.next.inj h
    by_cases hn : s.power = .on ∧ s.device = .starting
    · simp only [hn, and_self, if_true]
      have e : (s.endCheck d).keys = (s.keys.check d) := congrArg Frame.keys (s.frame_endCheck d)
      have hset : (s.endCheck d).keys.lockAgrees := e ▸ KeyStore.lockAgrees_setLock _
      exact hset
    · rw [if_neg hn] at hd
      exact absurd hst hd
  · exact hk.lockAgrees (hl hst)

/-- A step idles, or runs the command at the front on the state without it. -/
theorem step_cases {s t : State} (h : step s = .next t) :
    t = s ∨ ∃ c rest, s.pending = c :: rest ∧ exec c { s with pending := rest } = .next t := by
  unfold step at h
  split at h
  next => exact .inl (Host.Outcome.next.inj h).symm
  next c rest hp => exact .inr ⟨c, rest, hp, h⟩

/-- Settles O8: the key store's steps keep attempts and lock in agreement, and STARTING is left only with the lock
set. -/
theorem lockSoundKept : Obligations.LockSoundKept := by
  intro s t hs h
  obtain rfl | ⟨c, rest, -, h⟩ := step_cases h
  · exact hs
  · have hs : State.lockSound { s with pending := rest } := hs
    by_cases hc : c.isSupply = true
    · exact lockSound_of_supply hc hs h
    · exact exec_lockSound (Bool.not_eq_true _ ▸ hc) hs h

end Sys2Proof.Machine
end
section
/-! SUPPORT. The watch queue, the settings and the calibration records after a command (R175, R179, R83). -/
namespace Sys2Proof.Machine

/-! ### The watch queue (R175) -/

/-- What a command can do to the watch queue: entries leave its head, a written word joins it, a restart fills it
again. -/
inductive WatchStep (w : List WatchId) : List WatchId → Prop where
  | taken (n : Nat) : WatchStep w (w.drop n)
  | noticed (i : WatchId) : WatchStep w (enqueueNew w i)
  | emptied : WatchStep w []
  | refilled (s : State) : WatchStep w s.refill

theorem WatchStep.same (w : List WatchId) : WatchStep w w := .taken 0

theorem WatchStep.of_eq {v w : List WatchId} (h : v = w) : WatchStep w v := h ▸ .same v

theorem enqueueNew_nodup {α : Type} [DecidableEq α] {l : List α} (x : α) (h : l.Nodup) : (enqueueNew l x).Nodup := by
  unfold enqueueNew
  split
  · exact h
  · exact List.nodup_append.2 ⟨h, List.pairwise_singleton _ x, fun a ha b hb e => by
      rw [List.mem_singleton] at hb; subst hb e; contradiction⟩

theorem nodup_map {α β : Type} {f : α → β} (hf : Function.Injective f) {l : List α} (h : l.Nodup) : (l.map f).Nodup :=
  List.Pairwise.map f (fun _ _ apart same => apart (hf same)) h

theorem watchOfPos_injective : Function.Injective watchOfPos := fun p q h => by
  have hv := congrArg Fin.val h
  exact Fin.ext (show p.val = q.val from hv)

theorem watchOfSlot_injective : Function.Injective watchOfSlot := fun j k h => by
  have hv : 25 + j.val = 25 + k.val := congrArg Fin.val h
  exact Fin.ext (by omega)

/-- The three parts of a refilled queue lie in different ranges of the watch index. -/
theorem State.refill_nodup (s : State) : s.refill.Nodup := by
  have pos := nodup_map watchOfPos_injective ((List.nodup_finRange 24).filter
    (fun p => decide (s.mem.read (positionAddr p + 0x02) ≠ 0)))
  have slots := nodup_map watchOfSlot_injective ((List.nodup_finRange 8).filter
    (fun k => decide (s.owner k = ownerReady ∨ s.owner k = ownerCancel)))
  unfold State.refill allPositions allSlots
  refine List.nodup_append.2 ⟨List.nodup_append.2 ⟨List.pairwise_singleton _ _, pos, ?_⟩, slots, ?_⟩
  · intro a ha b hb e
    obtain ⟨p, -, rfl⟩ := List.mem_map.1 hb
    have hv : (24 : Nat) = p.val := congrArg Fin.val ((List.mem_singleton.1 ha).symm.trans e)
    omega
  · intro a ha b hb e
    obtain ⟨k, -, rfl⟩ := List.mem_map.1 hb
    have hv : a.val = 25 + k.val := congrArg Fin.val e
    rcases List.mem_append.1 ha with ha | ha
    · have h24 : a.val = 24 := congrArg Fin.val (List.mem_singleton.1 ha)
      omega
    · obtain ⟨p, -, rfl⟩ := List.mem_map.1 ha
      have hp : p.val = 25 + k.val := hv
      omega

theorem WatchStep.nodup {v w : List WatchId} (h : WatchStep w v) (hw : w.Nodup) : v.Nodup := by
  cases h with
  | taken n => exact hw.sublist (List.drop_sublist n w)
  | noticed i => exact enqueueNew_nodup i hw
  | emptied => exact List.nodup_nil
  | refilled s => exact s.refill_nodup

theorem State.restart_watchStep (s : State) : WatchStep s.watch s.restart.watch := by
  by_cases h : s.device = .starting
  · rw [show s.restart = s from if_pos h]; exact .same _
  · rw [show s.restart.watch = s.restartPosted.refill from congrArg Frame.watch (State.frame_restart h)]
    exact .refilled _

theorem State.writeRegister_watchStep (s : State) (r : BitVec 2) (v : Word16) :
    WatchStep s.watch (s.writeRegister r v).watch := by
  unfold State.writeRegister State.writeControl
  (repeat' split) <;> first
    | exact .same _
    | exact s.restart_watchStep
    | exact .of_eq (congrArg Frame.watch s.frame_stop)
    | exact .of_eq (congrArg Frame.watch s.frame_resume)

theorem State.notice_watchStep (s : State) (a : Nat) : WatchStep s.watch (s.notice a).watch := by
  unfold State.notice
  split
  · exact .same _
  · exact .noticed _

theorem State.hostWrite_watchStep (s : State) (a : Nat) (v : Word16) : WatchStep s.watch (s.hostWrite a v).watch := by
  unfold State.hostWrite State.storeDuringClear State.store
  dsimp only
  (repeat' split) <;> first
    | exact .same _
    | exact State.notice_watchStep { s with mem := s.mem.writeWord a _ } a
    | exact State.notice_watchStep { s with clearing := false, mem := s.mem.writeWord a v } a

/-- What a command does to the watch queue. -/
theorem exec_watchStep {c : Instr} {s t : State} (h : exec c s = .next t) : WatchStep s.watch t.watch := by
  obtain ⟨n, d, hf, -⟩ := exec_worksTo h
  have work : (∀ f, (c.moves t f).watch = f.watch) → WatchStep s.watch t.watch := fun e => by
    rw [show t.watch = s.watch.drop n from (congrArg Frame.watch hf).trans (e _)]
    exact .taken n
  cases c with
  | powerOn | resetNAssert | resetNRelease | powerLoss =>
    obtain rfl := Host.Outcome.next.inj h
    split <;> first | exact .emptied | exact .same _
  | restart => obtain rfl := Host.Outcome.next.inj h; split; exact s.restart_watchStep; exact .same _
  | registerWriteOther r v =>
    obtain rfl := Host.Outcome.next.inj h; split; exact s.writeRegister_watchStep r v; exact .same _
  | hostWordWrite w v => obtain rfl := Host.Outcome.next.inj h; split; exact s.hostWrite_watchStep _ v; exact .same _
  | watchedWordWrite i v => obtain rfl := Host.Outcome.next.inj h; split; exact s.hostWrite_watchStep _ v; exact .same _
  | _ => exact work fun _ => rfl

/-- Settles O7: entries leave at the head, a word joins once, a restart fills the queue from three disjoint lists; and
there are 33 watched words. -/
theorem watchQueueKept : Obligations.WatchQueueKept := by
  refine ⟨fun s t hs h => ?_, fun s hs => ?_⟩
  · obtain rfl | ⟨c, rest, -, h⟩ := step_cases h
    · exact hs
    · exact (exec_watchStep h).nodup hs
  · exact Nat.le_trans (List.Nodup.length_le_of_subset hs fun i _ => List.mem_finRange i)
      (Nat.le_of_eq List.length_finRange)

/-! ### The settings (R179) -/

/-- R179: the ranges of the settings. -/
def Settings.inRange (x : Settings) : Prop :=
  x.retryCount.toNat ≤ 3 ∧ 1 ≤ x.presenceLimit.toNat ∧ x.presenceLimit.toNat ≤ 4000000

theorem Settings.inRange_reset : Settings.reset.inRange := by
  refine ⟨?_, ?_, ?_⟩ <;> decide

theorem readSettings_inRange (m : Memory) : (readSettings m).1.inRange := by
  have retry := clampNat_eq_max_min (Nat.zero_le 3) (m.read (settingsAddr + 2)).toNat
  have limit := clampNat_eq_max_min (show 1 ≤ 4000000 by omega) (m.word32 (settingsAddr + 4)).toNat
  refine ⟨?_, ?_, ?_⟩ <;> simp only [readSettings, BitVec.toNat_ofNat, retry, limit] <;> omega

theorem State.applySettings_settings (s : State) : s.applySettings.settings = (readSettings s.mem).1 := by
  have e : s.applySettings.frame = s.settingsTaken.frame := by
    rw [State.applySettings_eq, State.frame_examineQuiet, State.frame_examineQuiet, State.frame_evaluateAndPost]
  exact Frame.settings_eq e

/-- The settings after a command: as they were, at reset, or as read from the host's record. -/
theorem exec_settings {c : Instr} {s t : State} (h : exec c s = .next t) :
    t.settings = s.settings ∨ t.settings = Settings.reset ∨ ∃ m, t.settings = (readSettings m).1 := by
  obtain ⟨n, d, hf, -⟩ := exec_worksTo h
  have keep : (∀ f, (c.moves t f).settings = f.settings) → t.settings = s.settings := fun e =>
    (congrArg Frame.settings hf).trans (e _)
  have restart : s.restart.settings = s.settings ∨ s.restart.settings = Settings.reset := by
    by_cases hst : s.device = .starting
    · exact .inl (congrArg State.settings (show s.restart = s from if_pos hst))
    · exact .inr (congrArg Frame.settings (State.frame_restart hst))
  cases c with
  | powerOn | resetNAssert | resetNRelease | powerLoss =>
    obtain rfl := Host.Outcome.next.inj h
    split <;> first | exact .inl rfl | exact .inr (.inl rfl)
  | restart =>
    obtain rfl := Host.Outcome.next.inj h
    split
    · exact restart.imp_right .inl
    · exact .inl rfl
  | registerWriteOther r v =>
    obtain rfl := Host.Outcome.next.inj h
    split
    · unfold State.writeRegister State.writeControl
      (repeat' split) <;> first
        | exact .inl rfl
        | exact restart.imp_right .inl
        | exact .inl (congrArg Frame.settings s.frame_stop)
        | exact .inl (congrArg Frame.settings s.frame_resume)
    · exact .inl rfl
  | settingsEditionTaken =>
    change execSettingsEditionTaken s = .next t at h
    unfold execSettingsEditionTaken at h
    rcases s.takeEntry_cases with e | ⟨i, rest, -, e⟩
    · simp only [e] at h; obtain rfl := Host.Outcome.next.inj h; exact .inl rfl
    · simp only [e] at h
      obtain rfl := Host.Outcome.next.inj h
      split
      · exact .inr (.inr ⟨_, (State.finish_settings _).trans (State.applySettings_settings _)⟩)
      · exact .inl rfl
  | _ => exact .inl (keep fun _ => rfl)

theorem exec_settings_inRange {c : Instr} {s t : State} (hs : s.settings.inRange) (h : exec c s = .next t) :
    t.settings.inRange := by
  rcases exec_settings h with e | e | ⟨m, e⟩ <;> rw [e]
  · exact hs
  · exact Settings.inRange_reset
  · exact readSettings_inRange m

/-! ### The calibration records (R83) -/

/-- R83: the range of a calibration record. -/
def CalRecord.inRange (r : CalRecord) : Prop :=
  -2048 ≤ r.offset.toInt ∧ r.offset.toInt ≤ 2047 ∧ 1 ≤ r.gain.toNat ∧ r.gain.toNat ≤ 16777215

/-- Every record lies in its range. -/
def calsInRange (v : Vector CalRecord 24) : Prop := ∀ c : ChannelId, v[c.val].inRange

theorem calsInRange_set {v : Vector CalRecord 24} {c : ChannelId} {r : CalRecord} (hv : calsInRange v)
    (hr : r.inRange) : calsInRange (v.set c.val r) := by
  intro d
  by_cases h : c = d
  · subst h; rw [Vector.getElem_set_self]; exact hr
  · rw [Vector.getElem_set_ne _ _ (fun e => h (Fin.ext e))]; exact hv d

theorem calsInRange_reset : calsInRange (Vector.replicate 24 CalRecord.reset) := by
  intro c
  rw [Vector.getElem_replicate]
  refine ⟨?_, ?_, ?_, ?_⟩ <;> decide

theorem clampInt_bounds {lo hi : Int} (h : lo ≤ hi) (v : Int) : lo ≤ clampInt lo hi v ∧ clampInt lo hi v ≤ hi := by
  unfold clampInt
  (repeat' split) <;> omega

/-- A number of the offset's range is held in its word as it is. -/
theorem toInt_ofInt_of_offset {a : Int} (h1 : -2048 ≤ a) (h2 : a ≤ 2047) : (BitVec.ofInt 16 a).toInt = a := by
  rw [BitVec.toInt_ofInt]
  exact Int.bmod_eq_of_le (by omega) (by omega)

theorem toNat_ofNat_of_gain {g : Nat} (h : g ≤ 16777215) : (BitVec.ofNat 32 g).toNat = g := by
  rw [BitVec.toNat_ofNat]
  exact Nat.mod_eq_of_lt (by omega)

theorem clampCal_inRange (o : Word16) (g : Word32) : (clampCal o g).inRange := by
  obtain ⟨hlo, hhi⟩ := clampInt_bounds (show (-2048 : Int) ≤ 2047 by omega) o.toInt
  have hg := clampNat_eq_max_min (show 1 ≤ 16777215 by omega) g.toNat
  unfold CalRecord.inRange clampCal
  rw [toInt_ofInt_of_offset hlo hhi, toNat_ofNat_of_gain (by omega)]
  omega

/-- A calibration leaves a record in its range (R86, R87). -/
theorem calOutcome_inRange {kind : CalKind} {ref : Word32} {r : CalRecord} {xs : List Word16} (h : r.inRange) :
    (calOutcome kind ref r xs).2.inRange := by
  unfold calOutcome
  cases kind with
  | offset =>
    dsimp only
    split
    · exact h
    · rename_i ha
      refine ⟨?_, ?_, h.2.2⟩ <;> rw [toInt_ofInt_of_offset] <;> omega
  | gain =>
    dsimp only
    (repeat' split) <;> first
      | exact h
      | (refine ⟨h.1, h.2.1, ?_⟩; rw [toNat_ofNat_of_gain] <;> omega)

theorem State.calLoadTask_cal {s : State} {k : SlotId} (h : calsInRange s.meas.cal) :
    calsInRange (State.calLoadTask k s).meas.cal := by
  unfold State.calLoadTask
  dsimp only
  split
  · rw [State.completeFree_meas]; exact h
  · rw [State.complete_meas]; exact calsInRange_set h (clampCal_inRange _ _)

theorem State.endCalibrate_cal {s : State} (k : SlotId) (c : ChannelId) (kind : CalKind) (ref : Word32)
    (xs : List Word16) (h : calsInRange s.meas.cal) : calsInRange (s.endCalibrate k c kind ref xs).meas.cal := by
  unfold State.endCalibrate
  dsimp only
  rw [State.complete_meas]
  refine calsInRange_set h ?_
  split
  · exact h c
  · exact calOutcome_inRange (h c)

theorem State.handMeasurement_cal {s : State} (r : MeasRequest) (xs : List Word16) (h : calsInRange s.meas.cal) :
    calsInRange (s.handMeasurement r xs).meas.cal := by
  have keep : ∀ u : State, u.frame = s.frame → calsInRange u.meas.cal := fun u e => (Frame.cal_eq e) ▸ h
  unfold State.handMeasurement
  split
  · exact keep _ (by simp)
  · exact keep _ (by simp)
  · rw [Frame.cal_eq (State.frame_advanceCalibration _)]
    exact State.endCalibrate_cal _ _ _ _ _ h

/-- A task that leaves the records in range, run on them as they stood. -/
theorem State.runTask_cal {s : State} {kind : Word16} {work : SlotId → State → State}
    (hw : ∀ k u, calsInRange u.meas.cal → calsInRange (work k u).meas.cal) (h : calsInRange s.meas.cal) :
    calsInRange (s.runTask kind work).meas.cal := by
  rcases s.runTask_cases kind work with e | ⟨k, rest, -, e⟩
  · rw [e]; exact h
  · rw [e]; exact hw k (s.taken k rest) h

theorem exec_cal {c : Instr} {s t : State} (hs : calsInRange s.meas.cal) (h : exec c s = .next t) :
    calsInRange t.meas.cal := by
  obtain ⟨n, d, hf, -⟩ := exec_worksTo h
  have keep : (∀ f, (c.moves t f).cal = f.cal) → calsInRange t.meas.cal := fun e => by
    rw [show t.meas.cal = s.meas.cal from (congrArg Frame.cal hf).trans (e _)]; exact hs
  cases c with
  | powerOn | resetNAssert | resetNRelease | powerLoss =>
    obtain rfl := Host.Outcome.next.inj h
    split <;> first | exact hs | exact calsInRange_reset
  | calLoad => obtain rfl := Host.Outcome.next.inj h; exact State.runTask_cal (fun _ _ => State.calLoadTask_cal) hs
  | restart =>
    have e : t.frame = t.frame.withKept s.frame := by
      obtain rfl := Host.Outcome.next.inj h; split; exact s.frame_restart_kept; exact rfl
    rw [show t.meas.cal = s.meas.cal from congrArg Frame.cal e]; exact hs
  | registerWriteOther r v =>
    have e : t.frame = t.frame.withKept s.frame := by
      obtain rfl := Host.Outcome.next.inj h; split; exact s.frame_writeRegister_kept r v; exact rfl
    rw [show t.meas.cal = s.meas.cal from congrArg Frame.cal e]; exact hs
  | samplingEnd xs =>
    change execSamplingEnd xs s = .next t at h
    unfold execSamplingEnd at h
    split at h
    · obtain rfl := Host.Outcome.next.inj h; exact hs
    · obtain rfl := Host.Outcome.next.inj h
      split
      · rw [State.finish_cal]
        show calsInRange (ite _ _ _ : State).meas.cal
        split
        · exact State.handMeasurement_cal _ _ hs
        · rw [Frame.cal_eq (State.frame_discardMeasurement _ _)]; exact hs
      · exact hs
  | _ => exact keep fun _ => rfl

/-- Settles O9: settings come from a clamped record, calibration records from a clamp or from a result in range. -/
theorem rangesKept : Obligations.RangesKept := by
  intro s t hs hc h
  obtain rfl | ⟨c, rest, -, h⟩ := step_cases h
  · exact ⟨hs, hc⟩
  · exact ⟨exec_settings_inRange (s := { s with pending := rest }) hs h, exec_cal (s := { s with pending := rest }) hc h⟩

end Sys2Proof.Machine
end
section
/-! SUPPORT. The canonical form of the exchange memory after a command (Table 1 of Exchange Memory). -/
namespace Sys2Proof.Machine

/-! ### The operations -/

section Ops

variable {s : State}

theorem State.memOk_ite {t : State} {c : Prop} [Decidable c] (ht : t.memOk) (hs : s.memOk) :
    (if c then t else s).memOk := by
  split
  · exact ht
  · exact hs

/-- A task that keeps the form, run on the state in which its slot has been taken. -/
theorem State.memOk_runTask {kind : Word16} {work : SlotId → State → State}
    (hw : ∀ k u, State.memOk u → (work k u).memOk) (h : s.memOk) : (s.runTask kind work).memOk := by
  rcases s.runTask_cases kind work with e | ⟨k, rest, -, e⟩
  · rw [e]; exact h
  · rw [e]; exact hw k _ (State.memOk_taken h k rest)

theorem State.memOk_stop (h : s.memOk) : s.stop.memOk := by
  unfold State.stop
  split
  · have held : (s.mapPositions (fun x => { x with timer := x.timer.hold })).memOk := (State.memOk_mapPositions ..).2 h
    exact State.memOk_stopIfIdle (State.memOk_evaluateAndPost _ held)
  · exact h

theorem State.memOk_resume (h : s.memOk) : s.resume.memOk := by
  unfold State.resume
  split
  · have restarted : (s.mapPositions Position.restartTimer).memOk := (State.memOk_mapPositions ..).2 h
    exact State.memOk_finish (State.memOk_chooseAmong _ _ (State.memOk_evaluateAndPost _ restarted))
  · exact h

theorem State.memOk_restartBlocks (h : s.memOk) : s.restartBlocks.memOk := by
  unfold State.restartBlocks
  exact (State.memOk_mapPositions s Position.restart).2 h

theorem State.memOk_restart (h : s.memOk) : s.restart.memOk := by
  by_cases hd : s.device = .starting
  · rw [show s.restart = s from if_pos hd]; exact h
  · have halted : s.restartHalted.memOk := State.memOk_evaluateAndPost _ h
    have cleared : s.restartCleared.memOk :=
      State.memOk_settlePermits _ (State.memOk_restartBlocks (State.memOk_completeAllFree _ _ _ halted))
    have posted : s.restartPosted.memOk :=
      State.memOk_postBlock _ (memOk_foldl _ (fun _ p hu => State.memOk_postHalf _ p hu) _ _ cleared)
    rw [State.restart_eq hd, State.memOk_attend]
    exact State.memOk_evaluateAndPost _ posted

theorem State.memOk_writeRegister (r : BitVec 2) (v : Word16) (h : s.memOk) : (s.writeRegister r v).memOk := by
  unfold State.writeRegister State.writeControl
  (repeat' split) <;> first
    | exact h
    | exact State.memOk_stop h
    | exact State.memOk_resume h
    | exact State.memOk_restart h

theorem State.memOk_notice (a : Nat) (h : s.memOk) : (s.notice a).memOk := by
  unfold State.notice
  split <;> exact h

theorem State.memOk_store (a : Nat) (v : Word16) (h : s.memOk) : (s.store a v).memOk :=
  State.memOk_notice (s := { s with mem := s.mem.writeWord a v }) a (Memory.wf_writeWord h _ _)

theorem State.memOk_hostWrite (a : Nat) (v : Word16) (h : s.memOk) : (s.hostWrite a v).memOk := by
  unfold State.hostWrite State.storeDuringClear
  split
  · split
    · have hw : ({ s with mem := s.mem.writeWord a (if Config.clearOverwrites s.free then 0 else v) } : State).memOk :=
        Memory.wf_writeWord h _ _
      exact (State.memOk_draw _).2 (State.memOk_ite (State.memOk_notice a hw) hw)
    · exact (State.memOk_draw _).2 (State.memOk_store (s := { s with clearing := false }) a v h)
  · exact State.memOk_store a v h

theorem State.memOk_endCheck (d : BitVec 16) (h : s.memOk) : (s.endCheck d).memOk := by
  unfold State.endCheck
  refine (State.memOk_attend _ _).2 (State.memOk_evaluateAndPost _ (State.memOk_ite (s := State.attend _ _) h ?_))
  exact (State.memOk_attend _ _).2 h

theorem State.memOk_applySettings (h : s.memOk) : s.applySettings.memOk := by
  have taken : s.settingsTaken.memOk := State.memOk_clearHeldBack _ _ (State.memOk_clearHeldBack _ _ h)
  exact State.memOk_examineQuiet _ _ (State.memOk_examineQuiet _ _ (State.memOk_evaluateAndPost _ taken))

theorem State.memOk_countMisuse (h : s.memOk) : s.countMisuse.memOk := by
  unfold State.countMisuse
  exact State.memOk_ite h (State.memOk_postBlock _ h)

theorem State.memOk_misuseEntry (k : SlotId) (h : s.memOk) : (s.misuseEntry k).memOk := by
  unfold State.misuseEntry
  split
  · exact State.memOk_ite (State.memOk_countMisuse h)
      (State.memOk_countMisuse (s := { s with mem := s.mem.writeWord _ _ }) (Memory.wf_writeWord h _ _))
  · exact (State.memOk_setSlot ..).2 h

theorem State.memOk_cancelKeyTask (k : SlotId) (h : s.memOk) : (s.cancelKeyTask k).memOk := by
  unfold State.cancelKeyTask
  exact State.memOk_ite (State.memOk_completeFree _ _ _ (State.memOk_postBlock _ h)) h

theorem State.memOk_handCancel (k : SlotId) (h : s.memOk) : (s.handCancel k).memOk := by
  have marked : (s.setSlot k { s.slot k with cancelHanded := true }).memOk := (State.memOk_setSlot ..).2 h
  unfold State.handCancel
  dsimp only
  (repeat' split)
  · exact State.memOk_cancelInspect _ _ marked
  · exact State.memOk_cancelRead _ _ marked
  · exact State.memOk_cancelWrite _ _ marked
  · exact State.memOk_cancelCalibrate _ _ marked
  · exact State.memOk_cancelCommit _ _ marked
  · exact State.memOk_cancelKeyTask k marked
  · exact marked

theorem State.memOk_cancelEntry (k : SlotId) (h : s.memOk) : (s.cancelEntry k).memOk := by
  unfold State.cancelEntry
  split
  · exact State.memOk_ite h (State.memOk_handCancel k h)
  · exact Memory.wf_writeWord h _ _
  · exact State.memOk_complete _ _ _ _ h

theorem State.memOk_calLoadTask (k : SlotId) (h : s.memOk) : (State.calLoadTask k s).memOk := by
  unfold State.calLoadTask
  dsimp only
  split
  · exact State.memOk_completeFree _ _ _ h
  · exact State.memOk_complete _ _ _ _ h

theorem memOk_importUid (acc : State × ImportCounts) (u : Word64) (h : acc.1.memOk) : (importUid acc u).1.memOk := by
  unfold importUid
  dsimp only
  (repeat' split) <;> first
    | exact h
    | exact State.memOk_retire _ _ h

theorem memOk_foldl_importUid (l : List Word64) (acc : State × ImportCounts) (h : acc.1.memOk) :
    (l.foldl importUid acc).1.memOk := by
  induction l generalizing acc with
  | nil => exact h
  | cons u l ih => rw [List.foldl_cons]; exact ih _ (memOk_importUid acc u h)

theorem State.memOk_retiredImportTask (k : SlotId) (h : s.memOk) : (State.retiredImportTask k s).memOk := by
  unfold State.retiredImportTask
  dsimp only
  split
  · exact State.memOk_completeFree _ _ _ h
  · split
    · exact State.memOk_completeFree _ _ _ h
    · have imported := memOk_foldl_importUid (s.mem.uids (word16At (s.payload k) 0).toNat
        (word16At (s.payload k) 2).toNat) (s, ⟨0, 0, 0, 0⟩) h
      exact State.memOk_complete _ _ _ _ (State.memOk_ite imported (State.memOk_postBlock _ imported))

theorem State.memOk_retiredExportTask (k : SlotId) (h : s.memOk) : (State.retiredExportTask k s).memOk := by
  unfold State.retiredExportTask
  dsimp only
  split
  · exact State.memOk_completeFree _ _ _ h
  · exact State.memOk_complete _ _ _ _ (Memory.wf_write h _ _)

theorem State.memOk_rulesLoadTask (k : SlotId) (h : s.memOk) : (State.rulesLoadTask k s).memOk := by
  unfold State.rulesLoadTask
  dsimp only
  split
  · exact (State.memOk_draw _).2 (State.memOk_complete _ _ _ _ h)
  · exact State.memOk_complete _ _ _ _ (State.memOk_postBlock _ h)

theorem State.memOk_setHolds (k : SlotId) (m : Byte) (h : s.memOk) : (s.setHolds k m).memOk :=
  State.memOk_complete _ _ _ _ (State.memOk_evaluateAndPost _ h)

theorem State.memOk_permitHoldTask (k : SlotId) (h : s.memOk) : (State.permitHoldTask k s).memOk := by
  unfold State.permitHoldTask
  split
  · exact State.memOk_completeFree _ _ _ h
  · exact State.memOk_setHolds k _ h

theorem State.memOk_permitFreeTask (k : SlotId) (h : s.memOk) : (State.permitFreeTask k s).memOk := by
  unfold State.permitFreeTask
  split
  · exact State.memOk_completeFree _ _ _ h
  · exact State.memOk_setHolds k _ h

theorem State.memOk_classLoadTask (k : SlotId) (h : s.memOk) : (State.classLoadTask k s).memOk := by
  unfold State.classLoadTask
  dsimp only
  split
  · exact (State.memOk_draw _).2 (State.memOk_complete _ _ _ _ h)
  · split
    · exact (State.memOk_draw _).2 (State.memOk_complete _ _ _ _ h)
    · exact State.memOk_complete _ _ _ _ (State.memOk_postBlock _ h)

theorem State.memOk_classDropTask (k : SlotId) (h : s.memOk) : (State.classDropTask k s).memOk := by
  unfold State.classDropTask
  dsimp only
  split
  · exact State.memOk_completeFree _ _ _ h
  · split
    · exact State.memOk_completeFree _ _ _ h
    · exact State.memOk_complete _ _ _ _ (State.memOk_postBlock _ h)

theorem State.memOk_queueKey (k : SlotId) (op : KeyOp) (h : s.memOk) : (s.queueKey k op).memOk :=
  State.memOk_postBlock _ h

theorem State.memOk_keyLoadTask (k : SlotId) (h : s.memOk) : (State.keyLoadTask k s).memOk := by
  unfold State.keyLoadTask
  split
  · exact State.memOk_completeFree _ _ _ h
  · exact State.memOk_queueKey k _ h

theorem State.memOk_keyEraseTask (k : SlotId) (h : s.memOk) : (State.keyEraseTask k s).memOk := by
  unfold State.keyEraseTask
  split
  · exact State.memOk_completeFree _ _ _ h
  · exact State.memOk_queueKey k _ h

theorem State.memOk_serveKey (t : KeyTask) (h : s.memOk) : (s.serveKey t).memOk := by
  have posted : ∀ u : State, u.memOk → u.postBlock.memOk := fun u => State.memOk_postBlock u
  unfold State.serveKey
  split
  · exact State.memOk_complete _ _ _ _ (posted _ h)
  · exact State.memOk_complete _ _ _ _ (posted _ h)
  · unfold State.serveLoad
    exact State.memOk_ite (State.memOk_completeFree _ _ _ (posted _ h)) (posted _ h)
  · unfold State.serveErase
    exact State.memOk_ite (State.memOk_completeFree _ _ _ (posted _ h)) (State.memOk_complete _ _ _ _ (posted _ h))

theorem State.memOk_endKeyWrite (w : KeyWrite) (h : s.memOk) : (s.endKeyWrite w).memOk := by
  have posted : ((s.setKeys (s.keys.endWrite w)).postBlock).memOk := State.memOk_postBlock _ h
  unfold State.endKeyWrite
  dsimp only
  split
  · exact posted
  · exact State.memOk_complete _ _ _ _ posted

theorem State.memOk_endTransaction (l : LineId) (x : LineCtl) (r : Transaction) (o : LineResult) (h : s.memOk) :
    (s.endTransaction l x r o).memOk :=
  State.memOk_finish (State.memOk_examineQuiet _ _ (State.memOk_conclude _ _ _ (by simpa using h)))

theorem memOk_lineRestEnd {t : State} {l : LineId} (hs : s.memOk) (h : execLineRestEnd l s = .next t) : t.memOk := by
  unfold execLineRestEnd at h
  obtain rfl := Host.Outcome.next.inj h
  refine State.memOk_ite ?_ hs
  split
  · exact hs
  · exact State.memOk_ite (by simpa using hs) (State.memOk_endTransaction l _ _ _ hs)
  · exact hs
  · exact State.memOk_ite (by simpa using hs) (State.memOk_finish (by simpa using hs))
  · refine State.memOk_ite (by simpa using hs) (State.memOk_finish (State.memOk_examineQuiet _ _ ?_))
    have idle : (s.setLine l (s.line l).toIdle).memOk := (State.memOk_setLine ..).2 hs
    exact State.memOk_endResets _ _ (State.memOk_ite (State.memOk_postBlock _ idle) idle)

theorem State.memOk_handMeasurement (r : MeasRequest) (xs : List Word16) (h : s.memOk) :
    (s.handMeasurement r xs).memOk := by
  unfold State.handMeasurement
  split
  · exact State.memOk_choose _ _ (State.memOk_signatureOutcome _ _ _ h)
  · exact State.memOk_choose _ _ (State.memOk_presenceOutcome _ _ _ h)
  · exact State.memOk_advanceCalibration _ (State.memOk_complete _ _ _ _ h)

theorem State.memOk_stickLine (l : LineId) (h : s.memOk) : (s.stickLine l).memOk :=
  State.memOk_finish (State.memOk_endResets _ _ (State.memOk_postBlock _
    (State.memOk_failAll _ _ _ _ ((State.memOk_setLine ..).2 h))))

theorem State.memOk_pulseInput (k : InputId) (h : s.memOk) : (s.pulseInput k).memOk := by
  have counted : (s.countInput k).memOk := (State.memOk_touchBlock _).2 h
  exact State.memOk_finish (State.memOk_chooseAmong _ _ ((State.memOk_draw _).2
    (memOk_foldl _ (fun _ p hu => State.memOk_pulseAt _ p hu) _ _ counted)))

end Ops

/-! ### The commands -/

/-- Every command keeps the canonical form. -/
theorem exec_memOk {c : Instr} {s t : State} (hs : s.memOk) (h : exec c s = .next t) : t.memOk := by
  cases c with
  | powerOn | resetNAssert | resetNRelease | powerLoss =>
    obtain rfl := Host.Outcome.next.inj h; split <;> first | exact hs | exact (rfl : State.reset.memOk)
  | startupCheckEnd d => obtain rfl := Host.Outcome.next.inj h; exact State.memOk_ite (State.memOk_endCheck d hs) hs
  | restart => obtain rfl := Host.Outcome.next.inj h; exact State.memOk_ite (State.memOk_restart hs) hs
  | stop => obtain rfl := Host.Outcome.next.inj h; exact State.memOk_ite (State.memOk_stop hs) hs
  | resume => obtain rfl := Host.Outcome.next.inj h; exact State.memOk_ite (State.memOk_resume hs) hs
  | attentionWrite v | attentionEnableWrite v => obtain rfl := Host.Outcome.next.inj h; split <;> exact hs
  | registerWriteOther r v =>
    obtain rfl := Host.Outcome.next.inj h; exact State.memOk_ite (State.memOk_writeRegister r v hs) hs
  | hostWordWrite w v => obtain rfl := Host.Outcome.next.inj h; exact State.memOk_ite (State.memOk_hostWrite _ v hs) hs
  | watchedWordWrite i v =>
    obtain rfl := Host.Outcome.next.inj h
    exact State.memOk_ite (State.memOk_hostWrite _ v hs) hs
  | configEditionTaken =>
    change execConfigEditionTaken s = .next t at h
    unfold execConfigEditionTaken at h
    rcases s.takeEntry_cases with e | ⟨i, rest, -, e⟩ <;> simp only [e] at h
    · obtain rfl := Host.Outcome.next.inj h; exact hs
    · split at h <;> obtain rfl := Host.Outcome.next.inj h
      · exact hs
      · exact State.memOk_finish (State.memOk_configEdition _ _ hs)
  | settingsEditionTaken =>
    change execSettingsEditionTaken s = .next t at h
    unfold execSettingsEditionTaken at h
    rcases s.takeEntry_cases with e | ⟨i, rest, -, e⟩ <;> simp only [e] at h <;> obtain rfl := Host.Outcome.next.inj h
    · exact hs
    · exact State.memOk_ite (State.memOk_finish (State.memOk_applySettings (s := s.withWatch rest) hs)) hs
  | taskBadKind =>
    change execTaskBadKind s = .next t at h
    unfold execTaskBadKind at h
    rcases s.takeReady_cases with e | ⟨k, rest, -, e⟩ <;> simp only [e] at h <;> obtain rfl := Host.Outcome.next.inj h
    · exact hs
    · exact State.memOk_ite hs (State.memOk_complete _ _ _ _ (State.memOk_taken hs k rest))
  | cancel =>
    change execCancel s = .next t at h
    unfold execCancel at h
    rcases s.takeOwner_cases with e | ⟨k, rest, -, e⟩ <;> simp only [e] at h <;> obtain rfl := Host.Outcome.next.inj h
    · exact hs
    · exact State.memOk_ite (State.memOk_finish (State.memOk_cancelEntry (s := s.withWatch rest) k hs)) hs
  | ownerWordMisuse =>
    change execOwnerWordMisuse s = .next t at h
    unfold execOwnerWordMisuse at h
    rcases s.takeOwner_cases with e | ⟨k, rest, -, e⟩ <;> simp only [e] at h <;> obtain rfl := Host.Outcome.next.inj h
    · exact hs
    · exact State.memOk_ite (State.memOk_misuseEntry (s := s.withWatch rest) k hs) hs
  | inspect =>
    obtain rfl := Host.Outcome.next.inj h
    exact State.memOk_runTask (fun k _ hu => State.memOk_finish (State.memOk_inspectTask _ k hu)) hs
  | tagRead =>
    obtain rfl := Host.Outcome.next.inj h
    exact State.memOk_runTask (fun k _ hu => State.memOk_finish (State.memOk_tagReadTask _ k hu)) hs
  | tagWrite =>
    obtain rfl := Host.Outcome.next.inj h
    exact State.memOk_runTask (fun k _ hu => State.memOk_finish (State.memOk_tagWriteTask _ k hu)) hs
  | lineReset =>
    obtain rfl := Host.Outcome.next.inj h
    exact State.memOk_runTask (fun k _ hu => State.memOk_finish (State.memOk_lineResetTask _ k hu)) hs
  | calLoad =>
    obtain rfl := Host.Outcome.next.inj h
    exact State.memOk_runTask (fun k _ => State.memOk_calLoadTask k) hs
  | calibrate =>
    obtain rfl := Host.Outcome.next.inj h; exact State.memOk_runTask (fun k u => State.memOk_calibrateTask u k) hs
  | usageCommit =>
    obtain rfl := Host.Outcome.next.inj h
    exact State.memOk_runTask (fun k _ hu => State.memOk_finish (State.memOk_usageCommitTask _ k hu)) hs
  | retiredImport =>
    obtain rfl := Host.Outcome.next.inj h; exact State.memOk_runTask (fun k _ => State.memOk_retiredImportTask k) hs
  | retiredExport =>
    obtain rfl := Host.Outcome.next.inj h; exact State.memOk_runTask (fun k _ => State.memOk_retiredExportTask k) hs
  | retiredRemove =>
    obtain rfl := Host.Outcome.next.inj h
    exact State.memOk_runTask (fun k _ hu => State.memOk_finish (State.memOk_retiredRemoveTask _ k hu)) hs
  | release =>
    obtain rfl := Host.Outcome.next.inj h
    exact State.memOk_runTask (fun k _ hu => State.memOk_finish (State.memOk_releaseTask _ k hu)) hs
  | rulesLoad =>
    obtain rfl := Host.Outcome.next.inj h; exact State.memOk_runTask (fun k _ => State.memOk_rulesLoadTask k) hs
  | permitHold =>
    obtain rfl := Host.Outcome.next.inj h; exact State.memOk_runTask (fun k _ => State.memOk_permitHoldTask k) hs
  | permitFree =>
    obtain rfl := Host.Outcome.next.inj h; exact State.memOk_runTask (fun k _ => State.memOk_permitFreeTask k) hs
  | classLoad =>
    obtain rfl := Host.Outcome.next.inj h; exact State.memOk_runTask (fun k _ => State.memOk_classLoadTask k) hs
  | classDrop =>
    obtain rfl := Host.Outcome.next.inj h; exact State.memOk_runTask (fun k _ => State.memOk_classDropTask k) hs
  | keyLoad =>
    obtain rfl := Host.Outcome.next.inj h
    exact State.memOk_runTask (fun k _ => State.memOk_keyLoadTask k) hs
  | keyErase =>
    obtain rfl := Host.Outcome.next.inj h; exact State.memOk_runTask (fun k _ => State.memOk_keyEraseTask k) hs
  | keysUnlock | keysLock =>
    obtain rfl := Host.Outcome.next.inj h; exact State.memOk_runTask (fun k _ => State.memOk_queueKey k _) hs
  | keyTaskServe =>
    change execKeyTaskServe s = .next t at h
    unfold execKeyTaskServe at h
    split at h <;> obtain rfl := Host.Outcome.next.inj h
    · exact hs
    · exact State.memOk_ite (State.memOk_serveKey (s := s.setKeys _) _ hs) hs
  | keyWriteEnd =>
    change execKeyWriteEnd s = .next t at h
    unfold execKeyWriteEnd at h
    split at h <;> obtain rfl := Host.Outcome.next.inj h
    · exact hs
    · exact State.memOk_ite (State.memOk_endKeyWrite _ hs) hs
  | lineTransactionStart l =>
    change execLineTransactionStart l s = .next t at h
    unfold execLineTransactionStart at h
    split at h <;> obtain rfl := Host.Outcome.next.inj h
    · exact hs
    · exact State.memOk_ite ((State.memOk_setLine ..).2 hs) hs
  | readbackFailure l bit level =>
    change execReadbackFailure l bit level s = .next t at h
    unfold execReadbackFailure at h
    split at h <;> obtain rfl := Host.Outcome.next.inj h
    · exact hs
    · exact State.memOk_ite (by simpa using hs) hs
  | callEnd => obtain rfl := Host.Outcome.next.inj h; exact State.memOk_ite (by simpa using hs) hs
  | replyWindowExpiry => obtain rfl := Host.Outcome.next.inj h; exact State.memOk_ite (by simpa using hs) hs
  | replyStart => obtain rfl := Host.Outcome.next.inj h; exact State.memOk_ite (by simpa using hs) hs
  | replyAttemptError l es =>
    change execReplyAttemptError l es s = .next t at h
    unfold execReplyAttemptError at h
    split at h <;> obtain rfl := Host.Outcome.next.inj h
    · exact State.memOk_ite (by simpa using hs) hs
    · exact hs
    · exact hs
  | replyComplete l es =>
    change execReplyComplete l es s = .next t at h
    unfold execReplyComplete at h
    split at h <;> obtain rfl := Host.Outcome.next.inj h
    · exact State.memOk_ite (State.memOk_endTransaction l _ _ _ hs) hs
    · exact hs
    · exact hs
    · exact hs
  | lineRestEnd l => exact memOk_lineRestEnd hs h
  | quietSent =>
    obtain rfl := Host.Outcome.next.inj h
    exact State.memOk_ite (State.memOk_finish (State.memOk_enterQuiet _ _ hs)) hs
  | wakeSent => obtain rfl := Host.Outcome.next.inj h; exact State.memOk_ite (by simpa using hs) hs
  | lineStuckEntry l => obtain rfl := Host.Outcome.next.inj h; exact State.memOk_ite (State.memOk_stickLine l hs) hs
  | lineStuckRelease =>
    obtain rfl := Host.Outcome.next.inj h
    exact State.memOk_ite (State.memOk_postBlock _ ((State.memOk_modLine ..).2 hs)) hs
  | measurementStart =>
    change execMeasurementStart s = .next t at h
    unfold execMeasurementStart at h
    split at h <;> obtain rfl := Host.Outcome.next.inj h
    · exact hs
    · exact State.memOk_ite hs hs
  | settlingEnd => obtain rfl := Host.Outcome.next.inj h; exact State.memOk_ite hs hs
  | samplingEnd xs =>
    change execSamplingEnd xs s = .next t at h
    unfold execSamplingEnd at h
    split at h <;> obtain rfl := Host.Outcome.next.inj h
    · exact hs
    · have counted : ((s.modMeas (fun u => u.endSampling (isSaturated xs.toList))).touchBlock).memOk :=
        (State.memOk_touchBlock _).2 hs
      refine State.memOk_ite (State.memOk_finish ?_) hs
      exact State.memOk_ite (c := _ = Disposition.live) (State.memOk_handMeasurement _ _ counted)
        (State.memOk_discardMeasurement _ _ counted)
  | intervalTimerExpiry =>
    obtain rfl := Host.Outcome.next.inj h
    exact State.memOk_ite (State.memOk_finish (State.memOk_timerExpiry _ _ hs)) hs
  | cyclePulse k => obtain rfl := Host.Outcome.next.inj h; exact State.memOk_ite (State.memOk_pulseInput k hs) hs
  | inhibitNChange level =>
    obtain rfl := Host.Outcome.next.inj h
    exact State.memOk_ite (State.memOk_evaluatePermits { s with inhibitN := level } hs) hs
  | stateHalfPostingDelay p =>
    obtain rfl := Host.Outcome.next.inj h; exact State.memOk_ite (State.memOk_postHalf _ _ hs) hs
  | deviceBlockPostingDelay =>
    obtain rfl := Host.Outcome.next.inj h
    exact State.memOk_ite (State.memOk_postBlock _ hs) hs
  | cycleInputAcceptedLow => obtain rfl := Host.Outcome.next.inj h; exact State.memOk_ite hs hs

/-- Settles O6: every write keeps the canonical form, and every command writes by the memory's own writes. -/
theorem memoryCanonicalKept : Obligations.MemoryCanonicalKept := by
  intro s t hs h
  obtain rfl | ⟨c, rest, -, h⟩ := step_cases h
  · exact hs
  · exact exec_memOk (s := { s with pending := rest }) hs h

end Sys2Proof.Machine
end
section
/-! SUPPORT. The permits after a command (R155, R156): without power nothing but the supply acts; with power a command
ends in an evaluation, or moves nothing that the permits are read from. -/
namespace Sys2Proof.Machine

/-! ### Without power -/

section Off

variable {s : State}

theorem State.takeEntry_of_off (h : s.power ≠ .on) : s.takeEntry = none := if_neg fun e => h e.1

theorem State.takeOwner_of_off (h : s.power ≠ .on) : s.takeOwner = none := by
  rw [State.takeOwner, State.takeEntry_of_off h]

theorem State.takeReady_of_off (h : s.power ≠ .on) : s.takeReady = none := by
  rw [State.takeReady, State.takeOwner_of_off h]

theorem State.runTask_of_off (h : s.power ≠ .on) (kind : Word16) (work : SlotId → State → State) :
    s.runTask kind work = s := by
  rw [State.runTask, State.takeTask, State.takeReady_of_off h]

theorem State.lineIn_of_off (h : s.power ≠ .on) (l : LineId) (x : LineState) : s.lineIn l x = false :=
  decide_eq_false fun e => h e.1

/-- A command other than supply and reset does nothing to a part without power, or held in reset (R189). -/
theorem exec_of_off {c : Instr} {t : State} (hc : c.isSupply = false) (hp : s.power ≠ .on)
    (h : exec c s = .next t) : t = s := by
  have alone : ¬ s.power = .on := hp
  have first : ∀ q : Prop, ¬ (s.power = .on ∧ q) := fun _ e => hp e.1
  have line : ∀ l x, ¬ s.lineIn l x = true := fun l x e => by
    rw [State.lineIn_of_off hp] at e; exact Bool.false_ne_true e
  have sending : ∀ (l : LineId) (q : Prop), ¬ (s.lineIn l .calling = true ∧ q) := fun l _ e => line _ _ e.1
  cases c with
  | powerOn | resetNAssert | resetNRelease | powerLoss => exact absurd hc Bool.noConfusion
  | startupCheckEnd | settlingEnd | intervalTimerExpiry | cyclePulse | inhibitNChange
  | stateHalfPostingDelay | deviceBlockPostingDelay => obtain rfl := Host.Outcome.next.inj h; exact if_neg (first _)
  | restart | stop | resume | attentionWrite | attentionEnableWrite | registerWriteOther | hostWordWrite
  | watchedWordWrite | cycleInputAcceptedLow => obtain rfl := Host.Outcome.next.inj h; exact if_neg alone
  | configEditionTaken =>
    change execConfigEditionTaken s = .next t at h
    rw [execConfigEditionTaken, State.takeEntry_of_off hp] at h; exact (Host.Outcome.next.inj h).symm
  | settingsEditionTaken =>
    change execSettingsEditionTaken s = .next t at h
    rw [execSettingsEditionTaken, State.takeEntry_of_off hp] at h; exact (Host.Outcome.next.inj h).symm
  | taskBadKind =>
    change execTaskBadKind s = .next t at h
    rw [execTaskBadKind, State.takeReady_of_off hp] at h; exact (Host.Outcome.next.inj h).symm
  | cancel =>
    change execCancel s = .next t at h
    rw [execCancel, State.takeOwner_of_off hp] at h; exact (Host.Outcome.next.inj h).symm
  | ownerWordMisuse =>
    change execOwnerWordMisuse s = .next t at h
    rw [execOwnerWordMisuse, State.takeOwner_of_off hp] at h; exact (Host.Outcome.next.inj h).symm
  | keyTaskServe =>
    change execKeyTaskServe s = .next t at h
    unfold execKeyTaskServe at h
    split at h
    · exact (Host.Outcome.next.inj h).symm
    · obtain rfl := Host.Outcome.next.inj h; exact if_neg (first _)
  | keyWriteEnd =>
    change execKeyWriteEnd s = .next t at h
    unfold execKeyWriteEnd at h
    split at h
    · exact (Host.Outcome.next.inj h).symm
    · obtain rfl := Host.Outcome.next.inj h; exact if_neg alone
  | lineTransactionStart l =>
    change execLineTransactionStart l s = .next t at h
    unfold execLineTransactionStart at h
    split at h
    · exact (Host.Outcome.next.inj h).symm
    · obtain rfl := Host.Outcome.next.inj h; exact if_neg (line _ _)
  | readbackFailure l bit level =>
    change execReadbackFailure l bit level s = .next t at h
    unfold execReadbackFailure at h
    split at h
    · exact (Host.Outcome.next.inj h).symm
    · obtain rfl := Host.Outcome.next.inj h; exact if_neg (first _)
  | replyAttemptError l es =>
    change execReplyAttemptError l es s = .next t at h
    unfold execReplyAttemptError at h
    split at h
    · obtain rfl := Host.Outcome.next.inj h; exact if_neg (line _ _)
    · exact (Host.Outcome.next.inj h).symm
    · exact (Host.Outcome.next.inj h).symm
  | replyComplete l es =>
    change execReplyComplete l es s = .next t at h
    unfold execReplyComplete at h
    split at h
    · obtain rfl := Host.Outcome.next.inj h; exact if_neg (line _ _)
    · exact (Host.Outcome.next.inj h).symm
    · exact (Host.Outcome.next.inj h).symm
    · exact (Host.Outcome.next.inj h).symm
  | callEnd | quietSent | wakeSent => obtain rfl := Host.Outcome.next.inj h; exact if_neg (sending _ _)
  | replyWindowExpiry | replyStart | lineRestEnd | lineStuckRelease =>
    obtain rfl := Host.Outcome.next.inj h
    exact if_neg (line _ _)
  | lineStuckEntry => obtain rfl := Host.Outcome.next.inj h; exact if_neg (first _)
  | measurementStart =>
    change execMeasurementStart s = .next t at h
    unfold execMeasurementStart at h
    split at h
    · exact (Host.Outcome.next.inj h).symm
    · obtain rfl := Host.Outcome.next.inj h; exact if_neg (first _)
  | samplingEnd xs =>
    change execSamplingEnd xs s = .next t at h
    unfold execSamplingEnd at h
    split at h
    · exact (Host.Outcome.next.inj h).symm
    · obtain rfl := Host.Outcome.next.inj h; exact if_neg (first _)
  | _ => obtain rfl := Host.Outcome.next.inj h; exact State.runTask_of_off hp _ _

end Off

/-! ### What the permits are read from -/

/-- What decides whether the permits are current: device state, INHIBIT_N, the unit's own record, the positions. -/
def State.permitInputs (s : State) : DeviceState × Bool × PermitUnit × Vector Position 24 :=
  (s.device, s.inhibitN, s.permits, s.positions)

theorem State.current_of_inputs {s t : State} (h : t.permitInputs = s.permitInputs) (hs : s.permitsCurrent = true) :
    t.permitsCurrent = true := by
  simp only [State.permitInputs, Prod.mk.injEq] at h
  obtain ⟨hd, hi, hp, hx⟩ := h
  exact State.permitsCurrent_congr
    (State.blockerSets_congr (by rw [hd]) hi (by rw [hp]) (by rw [hp]) (State.memberBlocks_congr hx)) hp hs

section Inputs

variable (s : State)

@[simp] theorem State.permitInputs_setLine (l : LineId) (x : LineCtl) :
    (s.setLine l x).permitInputs = s.permitInputs := by simp [State.permitInputs]
@[simp] theorem State.permitInputs_modLine (l : LineId) (f : LineCtl → LineCtl) :
    (s.modLine l f).permitInputs = s.permitInputs := by simp [State.permitInputs]
@[simp] theorem State.permitInputs_setSlot (k : SlotId) (x : TaskSlot) :
    (s.setSlot k x).permitInputs = s.permitInputs := by simp [State.permitInputs]
@[simp] theorem State.permitInputs_modMeas (f : MeasUnit → MeasUnit) :
    (s.modMeas f).permitInputs = s.permitInputs := by simp [State.permitInputs]
@[simp] theorem State.permitInputs_setKeys (k : KeyStore) :
    (s.setKeys k).permitInputs = s.permitInputs := by simp [State.permitInputs]
@[simp] theorem State.permitInputs_draw : s.draw.permitInputs = s.permitInputs := by simp [State.permitInputs]
@[simp] theorem State.permitInputs_touchBlock : s.touchBlock.permitInputs = s.permitInputs := by
  simp [State.permitInputs]
@[simp] theorem State.permitInputs_attend (r : BitVec 4) : (s.attend r).permitInputs = s.permitInputs := by
  simp [State.permitInputs]
@[simp] theorem State.permitInputs_postBlock : s.postBlock.permitInputs = s.permitInputs := by
  simp [State.permitInputs]
@[simp] theorem State.permitInputs_complete (k : SlotId) (st : TaskStatus) (d : List Byte) :
    (s.complete k st d).permitInputs = s.permitInputs := by simp [State.permitInputs]
@[simp] theorem State.permitInputs_completeFree (k : SlotId) (st : TaskStatus) :
    (s.completeFree k st).permitInputs = s.permitInputs := by simp [State.permitInputs]
@[simp] theorem State.permitInputs_retire (u : Word64) : (s.retire u).permitInputs = s.permitInputs := by
  unfold State.retire
  (repeat' split) <;> rfl

end Inputs

theorem State.current_ite {s t : State} {c : Prop} [Decidable c] (ht : t.permitsCurrent = true)
    (hs : s.permitsCurrent = true) : (if c then t else s).permitsCurrent = true := by
  split
  · exact ht
  · exact hs

/-- A task, run on a state whose permits are current. -/
theorem State.current_runTask {s : State} {kind : Word16} {work : SlotId → State → State}
    (hw : ∀ k u, State.permitsCurrent u = true → (work k u).permitsCurrent = true) (h : s.permitsCurrent = true) :
    (s.runTask kind work).permitsCurrent = true := by
  rcases s.runTask_cases kind work with e | ⟨k, rest, -, e⟩
  · rw [e]; exact h
  · rw [e]; exact hw k _ (State.current_of_inputs (s := s) rfl h)

/-- A task that moves no input. -/
theorem State.current_runTask_inputs {s : State} {kind : Word16} {work : SlotId → State → State}
    (hw : ∀ k u, (work k u).permitInputs = State.permitInputs u) (h : s.permitsCurrent = true) :
    (s.runTask kind work).permitsCurrent = true :=
  State.current_runTask (fun k u => State.current_of_inputs (hw k u)) h

/-! ### The operations of steps that do not end in an evaluation -/

section Ops

variable (s : State)

theorem State.permitInputs_completeUnless {c : Prop} [Decidable c] {u v : State}
    (hu : u.permitInputs = s.permitInputs) (hv : v.permitInputs = s.permitInputs) :
    (if c then u else v).permitInputs = s.permitInputs := by
  split
  · exact hu
  · exact hv

theorem State.permitInputs_calLoadTask (k : SlotId) : (State.calLoadTask k s).permitInputs = s.permitInputs := by
  unfold State.calLoadTask State.setCal
  dsimp only
  split <;> simp

theorem State.permitInputs_calibrateTask (k : SlotId) : (State.calibrateTask k s).permitInputs = s.permitInputs := by
  unfold State.calibrateTask State.placeMeas
  dsimp only
  (repeat' split) <;> simp

theorem permitInputs_importUid (acc : State × ImportCounts) (u : Word64) :
    (importUid acc u).1.permitInputs = acc.1.permitInputs := by
  unfold importUid
  dsimp only
  (repeat' split) <;> simp

theorem permitInputs_foldl_importUid (l : List Word64) (acc : State × ImportCounts) :
    (l.foldl importUid acc).1.permitInputs = acc.1.permitInputs := by
  induction l generalizing acc with
  | nil => rfl
  | cons u l ih => rw [List.foldl_cons, ih, permitInputs_importUid]

theorem State.permitInputs_retiredImportTask (k : SlotId) :
    (State.retiredImportTask k s).permitInputs = s.permitInputs := by
  unfold State.retiredImportTask
  dsimp only
  (repeat' split) <;> simp [permitInputs_foldl_importUid]

theorem State.permitInputs_retiredExportTask (k : SlotId) :
    (State.retiredExportTask k s).permitInputs = s.permitInputs := by
  unfold State.retiredExportTask
  dsimp only
  split
  · simp
  · rw [State.permitInputs_complete]; rfl

theorem State.permitInputs_rulesLoadTask (k : SlotId) : (State.rulesLoadTask k s).permitInputs = s.permitInputs := by
  unfold State.rulesLoadTask
  dsimp only
  split
  · simp
  · rw [State.permitInputs_complete, State.permitInputs_postBlock]; rfl

theorem State.permitInputs_classLoadTask (k : SlotId) : (State.classLoadTask k s).permitInputs = s.permitInputs := by
  unfold State.classLoadTask
  dsimp only
  split
  · simp
  · split
    · simp
    · rw [State.permitInputs_complete, State.permitInputs_postBlock]; rfl

theorem State.permitInputs_classDropTask (k : SlotId) : (State.classDropTask k s).permitInputs = s.permitInputs := by
  unfold State.classDropTask
  dsimp only
  split
  · simp
  · split
    · simp
    · rw [State.permitInputs_complete, State.permitInputs_postBlock]; rfl

theorem State.permitInputs_queueKey (k : SlotId) (op : KeyOp) : (s.queueKey k op).permitInputs = s.permitInputs :=
  State.permitInputs_postBlock _

theorem State.permitInputs_keyLoadTask (k : SlotId) : (State.keyLoadTask k s).permitInputs = s.permitInputs := by
  unfold State.keyLoadTask
  split
  · simp
  · exact s.permitInputs_queueKey k _

theorem State.permitInputs_keyEraseTask (k : SlotId) : (State.keyEraseTask k s).permitInputs = s.permitInputs := by
  unfold State.keyEraseTask
  split
  · simp
  · exact s.permitInputs_queueKey k _

theorem State.permitInputs_serveKey (t : KeyTask) : (s.serveKey t).permitInputs = s.permitInputs := by
  unfold State.serveKey State.serveUnlock State.serveLock State.serveLoad State.serveErase
  dsimp only
  (repeat' split) <;> simp

theorem State.permitInputs_endKeyWrite (w : KeyWrite) : (s.endKeyWrite w).permitInputs = s.permitInputs := by
  unfold State.endKeyWrite
  dsimp only
  split <;> simp

theorem State.permitInputs_countMisuse : s.countMisuse.permitInputs = s.permitInputs := by
  unfold State.countMisuse
  split
  · rfl
  · rw [State.permitInputs_postBlock]; rfl

theorem State.permitInputs_misuseEntry (k : SlotId) : (s.misuseEntry k).permitInputs = s.permitInputs := by
  unfold State.misuseEntry
  split
  · split
    · exact s.permitInputs_countMisuse
    · rw [State.permitInputs_countMisuse]; rfl
  · simp

theorem State.permitInputs_hostWrite (a : Nat) (v : Word16) : (s.hostWrite a v).permitInputs = s.permitInputs := by
  unfold State.hostWrite State.storeDuringClear State.store State.notice
  dsimp only
  (repeat' split) <;> rfl

/-- PERMIT_HOLD and PERMIT_FREE evaluate the groups (R160). -/
theorem State.setHolds_current (k : SlotId) (m : Byte) : (s.setHolds k m).permitsCurrent = true :=
  State.current_of_inputs (State.permitInputs_complete _ _ _ _) (State.evaluateAndPost_current _)

theorem State.endCheck_current (d : BitVec 16) : (s.endCheck d).permitsCurrent = true :=
  State.current_of_inputs (State.permitInputs_attend _ _) (State.evaluateAndPost_current _)

variable {s}

theorem State.stop_current (h : s.permitsCurrent = true) : s.stop.permitsCurrent = true :=
  State.current_ite (State.stopIfIdle_current (State.evaluateAndPost_current _)) h

theorem State.resume_current (h : s.permitsCurrent = true) : s.resume.permitsCurrent = true :=
  State.current_ite (State.finish_current _) h

theorem State.restart_current (h : s.permitsCurrent = true) : s.restart.permitsCurrent = true := by
  by_cases hd : s.device = .starting
  · rw [show s.restart = s from if_pos hd]; exact h
  · rw [State.restart_eq hd]
    exact State.current_of_inputs (State.permitInputs_attend _ _) (State.evaluateAndPost_current _)

theorem State.writeRegister_current (r : BitVec 2) (v : Word16) (h : s.permitsCurrent = true) :
    (s.writeRegister r v).permitsCurrent = true := by
  unfold State.writeRegister State.writeControl
  (repeat' split)
  · exact h
  · exact State.stop_current h
  · exact State.resume_current h
  · exact State.restart_current h
  · exact h
  · exact State.current_of_inputs (s := s) rfl h
  · exact State.current_of_inputs (s := s) rfl h

theorem State.memberBlocks_congr_blocks {t : State} {g : GroupId} (h : ∀ q, (t.pos q).blocks g = (s.pos q).blocks g) :
    t.memberBlocks g = s.memberBlocks g := by
  rw [Bool.eq_iff_iff, State.memberBlocks_iff, State.memberBlocks_iff]
  simp only [h]

theorem State.pos_postHalf_ne (s : State) {p q : PosId} (h : p ≠ q) : (s.postHalf p).pos q = s.pos q :=
  State.pos_setPos_ne s _ h

/-- A posting of a half moves no input: the edition and the pulse mark block nothing. -/
theorem State.postHalf_current (p : PosId) (h : s.permitsCurrent = true) : (s.postHalf p).permitsCurrent = true := by
  refine State.permitsCurrent_congr (State.blockerSets_congr (by simp) (by simp) (by simp) (by simp) fun g => ?_)
    (by simp) h
  refine State.memberBlocks_congr_blocks fun q => ?_
  by_cases hq : p = q
  · subst hq; rw [State.pos_postHalf]; rfl
  · rw [State.pos_postHalf_ne s hq]

theorem lineRestEnd_current {t : State} {l : LineId} (hs : s.permitsCurrent = true)
    (h : execLineRestEnd l s = .next t) : t.permitsCurrent = true := by
  have kept : ∀ u : State, u.permitInputs = s.permitInputs → u.permitsCurrent = true :=
    fun u e => State.current_of_inputs e hs
  unfold execLineRestEnd at h
  obtain rfl := Host.Outcome.next.inj h
  refine State.current_ite ?_ hs
  split
  · exact hs
  · exact State.current_ite (kept _ (by simp)) (State.finish_current _)
  · exact hs
  · exact State.current_ite (kept _ (by simp)) (State.finish_current _)
  · exact State.current_ite (kept _ (by simp)) (State.finish_current _)

end Ops

/-! ### The commands -/

/-- A device that is not RUNNING has every permit OFF (R155). -/
theorem permitWordOf_of_not_running {s : State} (h : s.device ≠ .running) : permitWordOf s.blockerSets = 0 := by
  refine BitVec.eq_of_getLsbD_eq fun i hi => ?_
  have off : s.blockerSet ⟨i, hi⟩ ≠ 0 := fun e => h ((State.blockerSet_eq_zero_iff s ⟨i, hi⟩).1 e).1
  rw [permitWordOf_getLsbD _ ⟨i, hi⟩, State.blockerSets_getElem, decide_eq_false off]
  simp

theorem State.beginStartup_current (s : State) (i : Bool) (cyc : BitVec 8) :
    (s.beginStartup i cyc).permitsCurrent = true := by
  have sets : (s.beginStartup i cyc).blockerSets = (s.beginStartup i cyc).permits.blockers :=
    State.blockerSets_congr Iff.rfl rfl rfl rfl (fun _ => rfl)
  have word : permitWordOf (s.beginStartup i cyc).blockerSets = 0 :=
    permitWordOf_of_not_running (show DeviceState.starting ≠ .running from DeviceState.noConfusion)
  exact State.permitsCurrent_iff.2 ⟨sets.symm, word.symm⟩

/-- Supply and reset: with power the blocker sets are evaluated and every permit is OFF, without it every permit is
OFF. -/
theorem permitsFollow_of_supply {c : Instr} {s t : State} (hc : c.isSupply = true) (hs : s.permitsFollow)
    (h : exec c s = .next t) : t.permitsFollow := by
  have hold : ∀ p, p ≠ .on → (s.holdReset p).permitsFollow := fun p hp => ⟨fun e => absurd e hp, fun _ => rfl⟩
  have held := hold .held Power.noConfusion
  have off := hold .off Power.noConfusion
  have start : ∀ i cyc, (s.beginStartup i cyc).permitsFollow := fun i cyc =>
    ⟨fun _ => s.beginStartup_current i cyc, fun _ => rfl⟩
  cases c with
  | powerOn => obtain rfl := Host.Outcome.next.inj h; split; exact held; exact hs
  | resetNAssert => obtain rfl := Host.Outcome.next.inj h; split; exact hs; exact held
  | resetNRelease i cyc => obtain rfl := Host.Outcome.next.inj h; split; exact start i cyc; exact hs
  | powerLoss => obtain rfl := Host.Outcome.next.inj h; split; exact hs; exact off
  | _ => exact absurd hc Bool.noConfusion

/-- The waiting commands say nothing of the permits. -/
theorem State.permitsFollow_withPending {s : State} (rest : List Instr) (h : s.permitsFollow) :
    State.permitsFollow { s with pending := rest } :=
  ⟨fun hp => State.current_of_inputs (s := s) rfl (h.1 hp), h.2⟩

/-- Every other command keeps the permits current. -/
theorem exec_current {c : Instr} {s t : State} (hc : c.isSupply = false) (hs : s.permitsCurrent = true)
    (h : exec c s = .next t) : t.permitsCurrent = true := by
  have kept : ∀ u : State, u.permitInputs = s.permitInputs → u.permitsCurrent = true :=
    fun u e => State.current_of_inputs e hs
  cases c with
  | powerOn | resetNAssert | resetNRelease | powerLoss => exact absurd hc Bool.noConfusion
  | startupCheckEnd d => obtain rfl := Host.Outcome.next.inj h; exact State.current_ite (s.endCheck_current d) hs
  | restart => obtain rfl := Host.Outcome.next.inj h; exact State.current_ite (State.restart_current hs) hs
  | stop => obtain rfl := Host.Outcome.next.inj h; exact State.current_ite (State.stop_current hs) hs
  | resume => obtain rfl := Host.Outcome.next.inj h; exact State.current_ite (State.resume_current hs) hs
  | attentionWrite v | attentionEnableWrite v =>
    obtain rfl := Host.Outcome.next.inj h; exact State.current_ite (kept _ rfl) hs
  | registerWriteOther r v =>
    obtain rfl := Host.Outcome.next.inj h; exact State.current_ite (State.writeRegister_current r v hs) hs
  | hostWordWrite w v =>
    obtain rfl := Host.Outcome.next.inj h; exact State.current_ite (kept _ (s.permitInputs_hostWrite _ v)) hs
  | watchedWordWrite i v =>
    obtain rfl := Host.Outcome.next.inj h; exact State.current_ite (kept _ (s.permitInputs_hostWrite _ v)) hs
  | configEditionTaken =>
    change execConfigEditionTaken s = .next t at h
    unfold execConfigEditionTaken at h
    (repeat' split at h) <;> obtain rfl := Host.Outcome.next.inj h
    · exact hs
    · exact hs
    · exact State.finish_current _
  | settingsEditionTaken =>
    change execSettingsEditionTaken s = .next t at h
    unfold execSettingsEditionTaken at h
    split at h <;> obtain rfl := Host.Outcome.next.inj h
    · exact hs
    · exact State.current_ite (State.finish_current _) hs
  | taskBadKind =>
    change execTaskBadKind s = .next t at h
    unfold execTaskBadKind at h
    rcases s.takeReady_cases with e | ⟨k, rest, -, e⟩ <;> simp only [e] at h <;> obtain rfl := Host.Outcome.next.inj h
    · exact hs
    · exact State.current_ite hs (kept _ ((State.permitInputs_complete _ _ _ _).trans rfl))
  | cancel =>
    change execCancel s = .next t at h
    unfold execCancel at h
    split at h <;> obtain rfl := Host.Outcome.next.inj h
    · exact hs
    · exact State.current_ite (State.finish_current _) hs
  | ownerWordMisuse =>
    change execOwnerWordMisuse s = .next t at h
    unfold execOwnerWordMisuse at h
    rcases s.takeOwner_cases with e | ⟨k, rest, -, e⟩ <;> simp only [e] at h <;> obtain rfl := Host.Outcome.next.inj h
    · exact hs
    · exact State.current_ite (kept _ ((State.permitInputs_misuseEntry _ k).trans rfl)) hs
  | inspect | tagRead | tagWrite | lineReset | usageCommit | retiredRemove | release =>
    obtain rfl := Host.Outcome.next.inj h
    exact State.current_runTask (fun _ _ _ => State.finish_current _) hs
  | calLoad =>
    obtain rfl := Host.Outcome.next.inj h
    exact State.current_runTask_inputs (fun k u => State.permitInputs_calLoadTask u k) hs
  | calibrate =>
    obtain rfl := Host.Outcome.next.inj h
    exact State.current_runTask_inputs (fun k u => State.permitInputs_calibrateTask u k) hs
  | retiredImport =>
    obtain rfl := Host.Outcome.next.inj h
    exact State.current_runTask_inputs (fun k u => State.permitInputs_retiredImportTask u k) hs
  | retiredExport =>
    obtain rfl := Host.Outcome.next.inj h
    exact State.current_runTask_inputs (fun k u => State.permitInputs_retiredExportTask u k) hs
  | rulesLoad =>
    obtain rfl := Host.Outcome.next.inj h
    exact State.current_runTask_inputs (fun k u => State.permitInputs_rulesLoadTask u k) hs
  | permitHold =>
    obtain rfl := Host.Outcome.next.inj h
    refine State.current_runTask (fun k u hu => ?_) hs
    unfold State.permitHoldTask
    split
    · exact State.current_of_inputs (State.permitInputs_completeFree ..) hu
    · exact u.setHolds_current k _
  | permitFree =>
    obtain rfl := Host.Outcome.next.inj h
    refine State.current_runTask (fun k u hu => ?_) hs
    unfold State.permitFreeTask
    split
    · exact State.current_of_inputs (State.permitInputs_completeFree ..) hu
    · exact u.setHolds_current k _
  | classLoad =>
    obtain rfl := Host.Outcome.next.inj h
    exact State.current_runTask_inputs (fun k u => State.permitInputs_classLoadTask u k) hs
  | classDrop =>
    obtain rfl := Host.Outcome.next.inj h
    exact State.current_runTask_inputs (fun k u => State.permitInputs_classDropTask u k) hs
  | keyLoad =>
    obtain rfl := Host.Outcome.next.inj h
    exact State.current_runTask_inputs (fun k u => State.permitInputs_keyLoadTask u k) hs
  | keyErase =>
    obtain rfl := Host.Outcome.next.inj h
    exact State.current_runTask_inputs (fun k u => State.permitInputs_keyEraseTask u k) hs
  | keysUnlock | keysLock =>
    obtain rfl := Host.Outcome.next.inj h
    exact State.current_runTask_inputs (fun k u => State.permitInputs_queueKey u k _) hs
  | keyTaskServe =>
    change execKeyTaskServe s = .next t at h
    unfold execKeyTaskServe at h
    split at h <;> obtain rfl := Host.Outcome.next.inj h
    · exact hs
    · exact State.current_ite (kept _ ((State.permitInputs_serveKey _ _).trans (State.permitInputs_setKeys ..))) hs
  | keyWriteEnd =>
    change execKeyWriteEnd s = .next t at h
    unfold execKeyWriteEnd at h
    split at h <;> obtain rfl := Host.Outcome.next.inj h
    · exact hs
    · exact State.current_ite (kept _ (s.permitInputs_endKeyWrite _)) hs
  | lineTransactionStart l =>
    change execLineTransactionStart l s = .next t at h
    unfold execLineTransactionStart at h
    split at h <;> obtain rfl := Host.Outcome.next.inj h
    · exact hs
    · exact State.current_ite (kept _ (by simp)) hs
  | readbackFailure l bit level =>
    change execReadbackFailure l bit level s = .next t at h
    unfold execReadbackFailure at h
    split at h <;> obtain rfl := Host.Outcome.next.inj h
    · exact hs
    · exact State.current_ite (kept _ (by simp)) hs
  | callEnd | replyWindowExpiry | replyStart | wakeSent | lineStuckRelease =>
    obtain rfl := Host.Outcome.next.inj h; exact State.current_ite (kept _ (by simp)) hs
  | replyAttemptError l es =>
    change execReplyAttemptError l es s = .next t at h
    unfold execReplyAttemptError at h
    split at h <;> obtain rfl := Host.Outcome.next.inj h
    · exact State.current_ite (kept _ (by simp)) hs
    · exact hs
    · exact hs
  | replyComplete l es =>
    change execReplyComplete l es s = .next t at h
    unfold execReplyComplete at h
    split at h <;> obtain rfl := Host.Outcome.next.inj h
    · exact State.current_ite (State.finish_current _) hs
    · exact hs
    · exact hs
    · exact hs
  | lineRestEnd l => exact lineRestEnd_current hs h
  | quietSent | lineStuckEntry | intervalTimerExpiry | cyclePulse =>
    obtain rfl := Host.Outcome.next.inj h; exact State.current_ite (State.finish_current _) hs
  | measurementStart =>
    change execMeasurementStart s = .next t at h
    unfold execMeasurementStart at h
    split at h <;> obtain rfl := Host.Outcome.next.inj h
    · exact hs
    · exact State.current_ite (kept _ (by simp)) hs
  | settlingEnd => obtain rfl := Host.Outcome.next.inj h; exact State.current_ite (kept _ (by simp)) hs
  | samplingEnd xs =>
    change execSamplingEnd xs s = .next t at h
    unfold execSamplingEnd at h
    split at h <;> obtain rfl := Host.Outcome.next.inj h
    · exact hs
    · exact State.current_ite (State.finish_current _) hs
  | inhibitNChange level =>
    obtain rfl := Host.Outcome.next.inj h; exact State.current_ite (State.evaluatePermits_current _) hs
  | stateHalfPostingDelay p =>
    obtain rfl := Host.Outcome.next.inj h; exact State.current_ite (State.postHalf_current p hs) hs
  | deviceBlockPostingDelay =>
    obtain rfl := Host.Outcome.next.inj h; exact State.current_ite (kept _ (by simp)) hs
  | cycleInputAcceptedLow => obtain rfl := Host.Outcome.next.inj h; exact State.current_ite (kept _ rfl) hs

/-- Settles O3: supply and reset switch every permit OFF, without power nothing else acts, and with power every command
keeps the permits current. -/
theorem permitsFollowKept : Obligations.PermitsFollowKept := by
  intro s t hs h
  obtain rfl | ⟨c, rest, -, h⟩ := step_cases h
  · exact hs
  · have hs := State.permitsFollow_withPending rest hs
    by_cases hc : c.isSupply = true
    · exact permitsFollow_of_supply hc hs h
    · have hc := Bool.not_eq_true _ ▸ hc
      obtain ⟨hon, hoff⟩ := hs
      rw [State.permitsFollow, exec_power hc h]
      exact ⟨fun hp => exec_current hc (hon hp) h, fun hp => by rw [exec_of_off hc hp h]; exact hoff hp⟩

/-! ### At reset -/

theorem reset_permitsFollow : State.reset.permitsFollow := by
  have sets : State.reset.blockerSets = State.reset.permits.blockers := by
    have set : ∀ g, State.reset.blockerSet g = 0b00111 := by decide
    refine Vector.ext fun i hi => ?_
    rw [State.blockerSets_getElem State.reset ⟨i, hi⟩, set, State.reset, PermitUnit.reset, Vector.getElem_replicate]
  have word : permitWordOf State.reset.blockerSets = 0 :=
    permitWordOf_of_not_running (show DeviceState.starting ≠ .running from DeviceState.noConfusion)
  exact ⟨fun _ => State.permitsCurrent_iff.2 ⟨sets.symm, word.symm⟩, fun e => absurd rfl e⟩

/-- Settles O11: the reset state by its fields. -/
theorem invariantsHoldAtReset : Obligations.InvariantsHoldAtReset :=
  ⟨reset_permitsFollow, rfl, List.nodup_nil,
    ⟨Nat.le_refl 3, fun e => absurd e (by decide : (3 : Nat) ≠ 0), fun e => absurd rfl e⟩,
    Settings.inRange_reset, calsInRange_reset⟩

end Sys2Proof.Machine
end
section
/-! SUPPORT. Statements about the shared operations: the register window (R180, R181), the blocker sets (R161), taking a
slot (R183), completing a task (R186), the host's writes (R174, R175) and the tail of a step (R156, R188). -/
namespace Sys2Proof.Machine

/-! ### The register window (R180, R181) -/

/-- ATTN_N is low exactly while a reason is set and enabled. -/
theorem State.attnN_eq_false_iff (s : State) :
    s.attnN = false ↔ ∃ i : Nat, s.attention.getLsbD i = true ∧ s.attentionEnable.getLsbD i = true := by
  rw [State.attnN, decide_eq_false_iff_not]
  constructor
  · intro h
    refine Classical.byContradiction fun hn => h (BitVec.eq_of_getLsbD_eq fun i _ => ?_)
    have both : (s.attention.getLsbD i && s.attentionEnable.getLsbD i) = false :=
      Bool.eq_false_iff.2 fun e => hn ⟨i, by simpa using e⟩
    rw [BitVec.getLsbD_and, both]
    simp
  · rintro ⟨i, ha, he⟩ h
    have := congrArg (fun b => b.getLsbD i) h
    simp [BitVec.getLsbD_and, ha, he] at this

/-- Settles O23: each register by the branch that its number takes. -/
theorem registerWindow : Obligations.RegisterWindow := by
  intro s v hp
  have window : ∀ r v, exec (.registerWriteOther r v) s = .next (s.writeRegister r v) := fun r v =>
    congrArg _ (if_pos hp)
  have control : ∀ u, s.writeRegister 1 u = s.writeControl u := fun _ => rfl
  refine ⟨congrArg _ (if_pos hp), congrArg _ (if_pos hp), (window 0 v).trans rfl, fun h1 h2 h3 => ?_, ?_, ?_, ?_,
    ?_, ?_, ?_, ?_, s.attnN_eq_false_iff⟩
  · have ignored : s.writeControl v = s := by
      rw [State.writeControl, if_neg (show v ≠ codeStop from h1), if_neg (show v ≠ codeResume from h2),
        if_neg (show v ≠ codeRestart from h3)]
    rw [window, control, ignored]
  · rw [window]; exact (congrArg Host.Outcome.next (if_pos hp)).symm
  · rw [window]; exact (congrArg Host.Outcome.next (if_pos hp)).symm
  · rw [window]; exact (congrArg Host.Outcome.next (if_pos hp)).symm
  · show (0x24#8 ++ Config.revision).toNat / 256 = 0x24
    rw [BitVec.toNat_append]
    have := Config.revision.isLt
    rw [Nat.shiftLeft_eq, Nat.mul_comm, ← Nat.two_pow_add_eq_or_of_lt this]
    simp
    omega
  · show (s.device.code.setWidth 16).toNat = _
    rw [BitVec.toNat_setWidth]; have := s.device.code.isLt; omega
  · show (s.attention.setWidth 16).toNat = _
    rw [BitVec.toNat_setWidth]; have := s.attention.isLt; omega
  · show (s.attentionEnable.setWidth 16).toNat = _
    rw [BitVec.toNat_setWidth]; have := s.attentionEnable.isLt; omega

/-! ### Blocker sets (R161) -/

/-- A blocker set by whether each of the five conditions holds. -/
def blockersOf (running inhibit enabled held members : Bool) : Byte :=
  (if running then 0 else bNotRunning) ||| (if inhibit then 0 else bInhibit) ||| (if enabled then 0 else bDisabledGroup) |||
    (if held then bHeld else 0) ||| (if members then bPositions else 0)

theorem State.blockerSet_eq (s : State) (g : GroupId) : s.blockerSet g =
    blockersOf (decide (s.device = .running)) s.inhibitN (s.permits.groupEnable.getLsbD g.val)
      (s.permits.holds.getLsbD g.val) (s.memberBlocks g) := by
  simp [State.blockerSet, blockersOf]

/-- One bit a reason. -/
theorem blockersOf_bits : ∀ a b c d e : Bool, (blockersOf a b c d e).getLsbD 0 = !a ∧
    (blockersOf a b c d e).getLsbD 1 = !b ∧ (blockersOf a b c d e).getLsbD 2 = !c ∧
    (blockersOf a b c d e).getLsbD 3 = d ∧ (blockersOf a b c d e).getLsbD 4 = e ∧
    (blockersOf a b c d e).toNat < 2 ^ 5 := by
  decide

/-- Settles O5: the bits of the blocker set one at a time. -/
theorem blockerSetsNameReasons : Obligations.BlockerSetsNameReasons := by
  intro s g h hp
  have current := h.1 hp
  have hset : s.permits.blockers[g.val] = s.blockerSet g := by
    have e := (State.permitsCurrent_iff.1 current).1
    rw [← State.blockerSets_getElem]
    simp only [e]
  obtain ⟨b0, b1, b2, b3, b4, small⟩ := blockersOf_bits (decide (s.device = .running)) s.inhibitN
    (s.permits.groupEnable.getLsbD g.val) (s.permits.holds.getLsbD g.val) (s.memberBlocks g)
  rw [← State.blockerSet_eq] at b0 b1 b2 b3 b4 small
  dsimp only
  rw [hset]
  refine ⟨?_, ?_, ?_, ?_, ?_, fun i hi => ?_, ?_⟩
  · rw [b0]; simp
  · rw [b1]; simp
  · rw [b2]; simp
  · rw [b3]
  · simp only [b4, State.memberBlocks_iff, Position.blocks_iff]
  · exact Nat.testBit_lt_two_pow (Nat.lt_of_lt_of_le small (Nat.pow_le_pow_right (by omega) hi))
  · rw [State.blockerSet_eq_zero_iff, State.permitOutput_iff_mayRun current]

/-! ### Taking a slot (R183) -/

/-- A word that is written leaves every other byte. -/
theorem Memory.sameOutside_writeWord (m : Memory) (a : Nat) (w : Word16) : m.sameOutside (m.writeWord a w) a 2 :=
  fun b hb hn => Memory.read_write_ne m a (bytes16 w) (by rw [bytes16_length]; exact hn) hb

/-- Settles O14: a taken slot reads TAKEN and is HELD, and a kind that names no task ends at once. -/
theorem taskTaken : Obligations.TaskTaken := by
  intro s k kind rest h
  have hk := h.2.2.2
  refine ⟨rfl, fun j hj => ?_, ?_, s.taken_owner k rest, Memory.sameOutside_writeWord _ _ _, fun hbad => ?_⟩
  · exact State.slot_setSlot_ne (s.withWatch rest) _ (Ne.symm hj)
  · rw [State.taken_slot, hk]
  · have unnamed : kindNamed ((s.taken k rest).slot k).kind = false := by
      rw [State.taken_slot, hk]
      exact decide_eq_false fun (named : 1 ≤ kind.toNat ∧ kind.toNat ≤ 0x14) => by omega
    show execTaskBadKind s = _
    rw [execTaskBadKind, State.takeReady_of_head h]
    simp only [unnamed, Bool.false_eq_true, if_false]

/-! ### Completing a task (R186) -/

/-- A byte of a run that has been written. -/
theorem Memory.read_write_at (m : Memory) (a : Nat) (bs : List Byte) {i : Nat} (hi : i < bs.length)
    (ha : a + i < Memory.size) : (m.write a bs).read (a + i) = byteAt bs i := by
  rw [Memory.read_write _ _ _ ha, if_pos (by omega), Nat.add_sub_cancel_left]
  rfl

/-- A byte of a completed slot's result. -/
theorem State.complete_result (s : State) (k : SlotId) (st : TaskStatus) (d : List Byte) {i : Nat} (hi : i < 126) :
    (s.complete k st d).mem.read (slotAddr k + 0x82 + i) = byteAt (resultBytes st d) i := by
  have inside : slotAddr k + 0x82 + i < Memory.size := by
    obtain ⟨k, hk⟩ := k; simp only [slotAddr, Memory.size]; omega
  have written := Memory.read_write_at s.mem (slotAddr k + 0x82) (resultBytes st d) (i := i)
    (by rw [resultBytes_length]; exact hi) inside
  unfold State.complete
  dsimp only
  split
  · exact written
  · rw [Memory.writeWord, Memory.read_write_ne _ _ _ (by rw [bytes16_length]; omega) inside, written]

theorem byteAt_of_length_le {l : List Byte} {i : Nat} (h : l.length ≤ i) : byteAt l i = 0 := by
  rw [byteAt, List.getD_eq_getElem?_getD, List.getElem?_eq_none h]
  rfl

theorem byteAt_of_lt {l : List Byte} {i : Nat} (h : i < l.length) : byteAt l i = l[i] := by
  rw [byteAt, List.getD_eq_getElem?_getD, List.getElem?_eq_getElem h]
  rfl

theorem State.complete_status (s : State) (k : SlotId) (st : TaskStatus) (d : List Byte) :
    (s.complete k st d).mem.word (slotAddr k + 0x82) = st.code := by
  have bytes : (s.complete k st d).mem.bytes (slotAddr k + 0x82) 2 = bytes16 st.code := by
    refine List.ext_getElem (by simp [Memory.bytes]) fun i hi _ => ?_
    simp only [Memory.bytes, List.length_map, List.length_range] at hi
    simp only [Memory.bytes, List.getElem_map, List.getElem_range]
    rw [State.complete_result _ _ _ _ (by omega), resultBytes, List.append_assoc,
      byteAt_left (by rw [bytes16_length]; exact hi), byteAt_of_lt]
  rw [Memory.word, bytes, ofLeBytes_bytes16]

/-- The data of a result follow its status, and zeros follow the data. -/
theorem resultBytes_data (st : TaskStatus) {d : List Byte} (hd : d.length ≤ 124) {i : Nat} (hi : i < 124) :
    byteAt (resultBytes st d) (2 + i) = byteAt d i := by
  have status := bytes16_length st.code
  rw [resultBytes, List.take_of_length_le hd, List.append_assoc, byteAt_right (by omega), status,
    Nat.add_sub_cancel_left]
  by_cases h : i < d.length
  · rw [byteAt_left h]
  · rw [byteAt_right (by omega), byteAt_of_length_le (by omega : d.length ≤ i),
      byteAt_of_lt (by rw [List.length_replicate]; omega), List.getElem_replicate]

/-- Settles O13: the owner word, the mark and the result of a completed slot; free data fit a result. -/
theorem taskCompleted : Obligations.TaskCompleted := by
  refine ⟨fun s k st => ⟨_, ?_, rfl⟩, ⟨rfl, rfl⟩, fun s k st d hd => ?_⟩
  · rw [freeData_length]; exact freeFields_size _ _
  · refine ⟨rfl, fun j hj => s.complete_slot_ne st d hj, ?_, s.complete_owner k st d, ?_, fun i hi => ?_, fun i hn hi => ?_,
      fun a ha h1 h2 => ?_⟩
    · rw [State.complete_slot]; rfl
    · rw [show 0x1082 + 256 * k.val = slotAddr k + 0x82 by simp only [slotAddr]; omega, State.complete_status]
    · rw [show 0x1084 + 256 * k.val + i = slotAddr k + 0x82 + (2 + i) by simp only [slotAddr]; omega,
        State.complete_result _ _ _ _ (by omega), resultBytes_data st hd (by omega), byteAt_of_lt hi]
    · rw [show 0x1084 + 256 * k.val + i = slotAddr k + 0x82 + (2 + i) by simp only [slotAddr]; omega,
        State.complete_result _ _ _ _ (by omega), resultBytes_data st hd hi, byteAt_of_length_le hn]
    · exact complete_read s k st d ha (by simp only [slotAddr]; omega) (by simp only [slotAddr]; omega)

/-! ### The host's writes (R174, R175) -/

theorem watchedAddr_injective {i j : WatchId} (h : watchedAddr i = watchedAddr j) : i = j := by
  refine Fin.ext ?_
  simp only [watchedAddr, positionAddr, settingsAddr] at h
  (repeat' split at h) <;> omega

/-- The write watch knows each watched word by its own index. -/
theorem watchAt_watchedAddr (i : WatchId) : watchAt (watchedAddr i) = some i := by
  have found : watchAt (watchedAddr i) ≠ none := fun e =>
    absurd (List.find?_eq_none.1 e i (List.mem_finRange i)) (by simp)
  obtain ⟨j, hj⟩ := Option.ne_none_iff_exists'.1 found
  have same : watchedAddr j = watchedAddr i := by simpa using List.find?_some hj
  rw [hj, watchedAddr_injective same]

theorem watchedAddr_add_one_lt (i : WatchId) : watchedAddr i + 1 < Memory.size := by
  simp only [watchedAddr, positionAddr, settingsAddr, Memory.size]
  (repeat' split) <;> omega

theorem State.notice_watchedAddr (s : State) (i : WatchId) :
    s.notice (watchedAddr i) = { s with watch := enqueueNew s.watch i } := by
  rw [State.notice, watchAt_watchedAddr]

theorem State.notice_of_unwatched {s : State} {a : Nat} (h : watchAt a = none) : s.notice a = s := by
  rw [State.notice, h]

/-- A write during the start-up clear: one of the two words at the address, and whether the watch notices it left open
(log 8). -/
theorem State.storeDuringClear_cases (s : State) (a : Nat) (v : Word16) :
    ∃ w b, (w = v ∨ w = 0) ∧ (s.storeDuringClear a v = { s with
        mem := s.mem.writeWord a w, clearing := b, free := s.free + 1 } ∨
      s.storeDuringClear a v = { ({ s with
        mem := s.mem.writeWord a w, clearing := b } : State).notice a with free := s.free + 1 }) := by
  have free : ∀ u : State, (u.notice a).free = u.free := fun u => by unfold State.notice; split <;> rfl
  unfold State.storeDuringClear
  split
  · refine ⟨if Config.clearOverwrites s.free then 0 else v, s.clearing, ?_, ?_⟩
    · split
      · exact .inr rfl
      · exact .inl rfl
    · dsimp only
      split
      · refine .inr ?_
        rw [State.draw, free]
      · exact .inl rfl
  · refine ⟨v, false, .inl rfl, .inr ?_⟩
    rw [State.draw, State.store, free]

/-- Settles O24: the word is stored, and the watch notices it at a watched address. -/
theorem hostWrites : Obligations.HostWrites := by
  intro s v hp
  have word : ∀ w, exec (.hostWordWrite w v) s = .next (s.hostWrite (2 * w.toNat) v) := fun w =>
    congrArg _ (if_pos hp)
  have watched : ∀ i, exec (.watchedWordWrite i v) s = .next (s.hostWrite (watchedAddr i) v) := fun i =>
    congrArg _ (if_pos hp)
  have unwatched : ∀ w : BitVec 13, wfHostWord w = true → watchAt (2 * w.toNat) = none := fun w h =>
    of_decide_eq_true h
  have inside : ∀ w : BitVec 13, 2 * w.toNat + 1 < Memory.size := fun w => by
    have := w.isLt; simp only [Memory.size]; omega
  have plain : s.clearing = false → ∀ a, s.hostWrite a v = s.store a v := fun h a => by
    rw [State.hostWrite, h]; rfl
  have cleared : s.clearing = true → ∀ a, s.hostWrite a v = s.storeDuringClear a v := fun h a => by
    rw [State.hostWrite, h]; rfl
  refine ⟨fun w hw hc => ?_, fun i hc => ?_, fun i hc => ?_, fun w hw hc => ?_, fun w i e => ?_⟩
  · refine ⟨_, word w, ?_⟩
    rw [plain hc, State.store, State.notice_of_unwatched (unwatched w hw)]
    exact ⟨rfl, Memory.word_writeWord _ _ (inside w), Memory.sameOutside_writeWord _ _ _⟩
  · refine ⟨_, watched i, ?_⟩
    rw [plain hc, State.store, State.notice_watchedAddr]
    exact ⟨rfl, rfl, Memory.word_writeWord _ _ (watchedAddr_add_one_lt i), Memory.sameOutside_writeWord _ _ _⟩
  · obtain ⟨u, b, hu, e⟩ := s.storeDuringClear_cases (watchedAddr i) v
    have stored : (s.mem.writeWord (watchedAddr i) u).word (watchedAddr i) = v ∨
        (s.mem.writeWord (watchedAddr i) u).word (watchedAddr i) = 0 := by
      rw [Memory.word_writeWord _ _ (watchedAddr_add_one_lt i)]; exact hu
    refine ⟨_, watched i, ?_⟩
    rw [cleared hc]
    rcases e with e | e <;> rw [e]
    · exact ⟨rfl, .inl rfl, stored, Memory.sameOutside_writeWord _ _ _⟩
    · rw [State.notice_watchedAddr]
      exact ⟨rfl, .inr rfl, stored, Memory.sameOutside_writeWord _ _ _⟩
  · obtain ⟨u, b, hu, e⟩ := s.storeDuringClear_cases (2 * w.toNat) v
    have stored : (s.mem.writeWord (2 * w.toNat) u).word (2 * w.toNat) = v ∨
        (s.mem.writeWord (2 * w.toNat) u).word (2 * w.toNat) = 0 := by
      rw [Memory.word_writeWord _ _ (inside w)]; exact hu
    refine ⟨_, word w, ?_⟩
    rw [cleared hc]
    rcases e with e | e <;> rw [e]
    · exact ⟨rfl, stored, Memory.sameOutside_writeWord _ _ _⟩
    · rw [State.notice_of_unwatched (unwatched w hw)]
      exact ⟨rfl, stored, Memory.sameOutside_writeWord _ _ _⟩
  · rw [word, watched, e]

end Sys2Proof.Machine
end
section
/-! SUPPORT. The tail of a step (R156, R188), the sequencer's choice (R8), and the placing of a request (R43, R45, R46). -/
namespace Sys2Proof.Machine

/-! ### The tail of a step -/

theorem State.evaluatePermits_of_not_current {s : State} (h : ¬ s.permitsCurrent = true) :
    s.evaluatePermits = s.settlePermits.postBlock := if_neg h

theorem LineCtl.quiescent_iff (l : LineCtl) :
    l.quiescent = true ↔ (l.state = .idle ∨ l.state = .quiet ∨ l.state = .stuck) ∧ l.queue = [] := by
  simp [LineCtl.quiescent]

/-- The idle test says what R188 says. -/
theorem State.quiescent_iff (s : State) : s.quiescent = true ↔ s.atRest := by
  have positions : s.positions.toList.all (fun x => decide (x.seq = .idle ∨ x.seq = .off)) = true ↔
      ∀ p : PosId, (s.pos p).seq = .idle ∨ (s.pos p).seq = .off := by
    simp only [List.all_eq_true, Vector.mem_toList_iff, Vector.mem_iff_getElem, decide_eq_true_eq]
    exact ⟨fun h p => h _ ⟨p.val, p.isLt, rfl⟩, fun h x ⟨i, hi, e⟩ => e ▸ h ⟨i, hi⟩⟩
  have lines : (∀ l : LineId, ((s.line l).state = .idle ∨ (s.line l).state = .quiet ∨ (s.line l).state = .stuck) ∧
      (s.line l).queue = []) ↔ s.lineA.quiescent = true ∧ s.lineB.quiescent = true := by
    rw [LineCtl.quiescent_iff, LineCtl.quiescent_iff]
    exact ⟨fun h => ⟨h .A, h .B⟩, fun h l => by cases l; exact h.1; exact h.2⟩
  simp only [State.quiescent, State.atRest, Bool.and_eq_true, positions, lines, Option.isNone_iff_eq_none,
    List.isEmpty_iff, and_assoc]

theorem State.stopIfIdle_of_rest {s : State} (hd : s.device = .stopping) (h : s.atRest) :
    s.stopIfIdle = ({ s with device := .stopped } : State).postBlock :=
  if_pos ⟨hd, s.quiescent_iff.2 h⟩

theorem State.stopIfIdle_of_not_rest {s : State} (h : ¬ (s.device = .stopping ∧ s.atRest)) : s.stopIfIdle = s :=
  if_neg fun e => h ⟨e.1, s.quiescent_iff.1 e.2⟩

@[simp] theorem State.evaluatePermits_device (s : State) : s.evaluatePermits.device = s.device :=
  Frame.device_eq (State.frame_evaluatePermits s)

theorem State.atRest_evaluatePermits (s : State) : s.evaluatePermits.atRest ↔ s.atRest := by
  simp only [State.atRest, State.evaluatePermits_meas, State.evaluatePermits_line,
    State.pos_congr s.evaluatePermits_positions]

/-- What the evaluation leaves: the permits, the attention, and where something changed a posting of the block. -/
theorem State.evaluatePermits_eq (s : State) : s.evaluatePermits = { s with
    permits := s.evaluatePermits.permits, attention := s.evaluatePermits.attention, mem := s.evaluatePermits.mem,
    blockEdition := s.evaluatePermits.blockEdition, blockDirty := s.evaluatePermits.blockDirty } := by
  by_cases h : s.permitsCurrent = true
  · rw [State.evaluatePermits_of_current h]
  · rw [State.evaluatePermits_of_not_current h]; rfl

theorem getLsbD_or_left {n : Nat} {a : BitVec n} (b : BitVec n) {i : Nat} (h : a.getLsbD i = true) :
    (a ||| b).getLsbD i = true := by
  rw [BitVec.getLsbD_or, h, Bool.true_or]

theorem State.stopIfIdle_attention (s : State) {i : Nat} (h : s.attention.getLsbD i = true) :
    s.stopIfIdle.attention.getLsbD i = true := by
  unfold State.stopIfIdle
  split
  · exact getLsbD_or_left _ h
  · exact h

theorem State.settlePermits_attention_mono (s : State) {i : Nat} (h : s.attention.getLsbD i = true) :
    s.settlePermits.attention.getLsbD i = true := by
  unfold State.settlePermits
  dsimp only
  split
  · exact h
  · exact getLsbD_or_left _ h

theorem State.evaluatePermits_attention (s : State) {i : Nat} (h : s.attention.getLsbD i = true) :
    s.evaluatePermits.attention.getLsbD i = true := by
  unfold State.evaluatePermits
  split
  · exact h
  · exact getLsbD_or_left _ (s.settlePermits_attention_mono h)

/-- PERMIT is set when the permit word changes. -/
theorem State.evaluatePermits_permit {s : State} (h : s.evaluatePermits.permits.permitWord ≠ s.permits.permitWord) :
    s.evaluatePermits.attention.getLsbD 1 = true := by
  by_cases hc : s.permitsCurrent = true
  · rw [State.evaluatePermits_of_current hc] at h; exact absurd rfl h
  · rw [State.evaluatePermits_of_not_current hc] at h ⊢
    have changed : permitWordOf s.blockerSets ≠ s.permits.permitWord := h
    refine getLsbD_or_left _ ?_
    rw [State.settlePermits]
    dsimp only
    rw [if_neg changed, BitVec.getLsbD_or, show attPermit.getLsbD 1 = true from rfl, Bool.or_true]

theorem State.evaluatePermits_read (s : State) {a : Nat} (ha : a < Memory.size) (h1 : 128 ≤ a)
    (h2 : ¬ (0x0D00 ≤ a ∧ a < 0x0D90)) : s.evaluatePermits.mem.read a = s.mem.read a := by
  unfold State.evaluatePermits
  split
  · rfl
  · rw [postBlock_read _ ha h1 h2, State.settlePermits]

theorem State.stopIfIdle_read (s : State) {a : Nat} (ha : a < Memory.size) (h1 : 128 ≤ a)
    (h2 : ¬ (0x0D00 ≤ a ∧ a < 0x0D90)) : s.stopIfIdle.mem.read a = s.mem.read a := by
  unfold State.stopIfIdle
  split
  · rw [postBlock_read _ ha h1 h2]
  · rfl

@[simp] theorem State.stopIfIdle_permits (s : State) : s.stopIfIdle.permits = s.permits := by
  unfold State.stopIfIdle; split <;> simp

theorem State.finish_permits (s : State) : s.finish.permits = s.evaluatePermits.permits :=
  State.stopIfIdle_permits _

theorem State.finish_of_not_stopping {s : State} (h : s.device ≠ .stopping) : s.finish = s.evaluatePermits :=
  State.stopIfIdle_of_not_rest fun e => h (s.evaluatePermits_device ▸ e.1)

theorem State.finish_of_rest {s : State} (hd : s.device = .stopping) (h : s.atRest) :
    s.finish = ({ s.evaluatePermits with device := .stopped } : State).postBlock :=
  State.stopIfIdle_of_rest (s.evaluatePermits_device.trans hd) (s.atRest_evaluatePermits.2 h)

theorem State.finish_of_not_rest {s : State} (h : ¬ (s.device = .stopping ∧ s.atRest)) :
    s.finish = s.evaluatePermits :=
  State.stopIfIdle_of_not_rest fun e => h ⟨s.evaluatePermits_device ▸ e.1, s.atRest_evaluatePermits.1 e.2⟩

/-- What the tail of a step leaves. -/
theorem State.finish_eq (s : State) : s.finish = { s with
    device := s.finish.device, permits := s.finish.permits, attention := s.finish.attention, mem := s.finish.mem,
    blockEdition := s.finish.blockEdition, blockDirty := s.finish.blockDirty } := by
  by_cases h : s.device = .stopping ∧ s.atRest
  · rw [State.finish_of_rest h.1 h.2, s.evaluatePermits_eq]; rfl
  · rw [State.finish_of_not_rest h]
    conv => lhs; rw [s.evaluatePermits_eq]
    rw [s.evaluatePermits_device]

/-- The evaluation of the tail, read back from the state after it. -/
theorem State.evaluatePermits_of_finish (s : State) : s.evaluatePermits = { s.finish with
    device := s.device, blockEdition := s.evaluatePermits.blockEdition, attention := s.evaluatePermits.attention,
    mem := s.evaluatePermits.mem, blockDirty := s.evaluatePermits.blockDirty } := by
  by_cases h : s.device = .stopping ∧ s.atRest
  · rw [State.finish_of_rest h.1 h.2]
    conv => rhs; rw [← s.evaluatePermits_device]
    rfl
  · rw [State.finish_of_not_rest h]
    conv => rhs; rw [← s.evaluatePermits_device]

/-- Settles O15: the tail is an evaluation of the permits, then the stop of a device at rest. -/
theorem tailOfStep : Obligations.TailOfStep := by
  intro s
  refine ⟨s.finish_current, fun h => ?_, fun h => ?_, fun h => ?_, fun i h => ?_, s.finish_eq, s.finish_holds,
    s.finish_groupEnable,
    fun a ha h1 h2 => ?_, State.evaluatePermits_of_current, fun h => ?_, fun hd h => State.finish_of_rest hd h,
    State.finish_of_settled, State.finish_of_not_stopping, s.evaluatePermits_of_finish⟩
  · rw [State.finish_of_rest h.1 h.2]; rfl
  · rw [State.finish_of_not_rest h]; exact s.evaluatePermits_device
  · exact State.stopIfIdle_attention _ (State.evaluatePermits_permit (by rw [← State.finish_permits]; exact h))
  · exact State.stopIfIdle_attention _ (s.evaluatePermits_attention h)
  · exact (State.stopIfIdle_read _ ha (Nat.not_lt.1 h1) h2).trans (s.evaluatePermits_read ha (Nat.not_lt.1 h1) h2)
  · have changed : ¬ s.permitsCurrent = true := fun hc => by
      rw [State.finish_permits, State.evaluatePermits_of_current hc] at h
      exact h.elim (fun e => e rfl) fun e => e rfl
    refine ⟨s.settlePermits, State.evaluatePermits_of_not_current changed, ?_⟩
    rw [State.finish_permits, State.evaluatePermits_of_not_current changed]
    rfl

/-! ### Writing a position or a line twice -/

theorem State.setPos_setPos (s : State) (p : PosId) (x y : Position) : (s.setPos p x).setPos p y = s.setPos p y := by
  simp [State.setPos]

theorem State.modPos_eq (s : State) (p : PosId) (f : Position → Position) : s.modPos p f = s.setPos p (f (s.pos p)) :=
  rfl

theorem State.modPos_setPos (s : State) (p : PosId) (x : Position) (f : Position → Position) :
    (s.setPos p x).modPos p f = s.setPos p (f x) := by
  rw [State.modPos_eq, State.pos_setPos, State.setPos_setPos]

theorem State.modPos_modPos (s : State) (p : PosId) (f g : Position → Position) :
    (s.modPos p f).modPos p g = s.modPos p (fun x => g (f x)) := State.modPos_setPos s p _ g

theorem State.setLine_setLine (s : State) (l : LineId) (x y : LineCtl) : (s.setLine l x).setLine l y = s.setLine l y := by
  cases l <;> rfl

theorem State.modLine_setLine (s : State) (l : LineId) (x : LineCtl) (f : LineCtl → LineCtl) :
    (s.setLine l x).modLine l f = s.setLine l (f x) := by
  rw [State.modLine, State.line_setLine, State.setLine_setLine]

@[simp] theorem State.line_setPos (s : State) (p : PosId) (x : Position) (l : LineId) :
    (s.setPos p x).line l = s.line l := by cases l <;> rfl

@[simp] theorem State.line_modPos (s : State) (p : PosId) (f : Position → Position) (l : LineId) :
    (s.modPos p f).line l = s.line l := State.line_setPos ..

@[simp] theorem State.line_postHalf (s : State) (p : PosId) (l : LineId) : (s.postHalf p).line l = s.line l := by
  cases l <;> rfl

@[simp] theorem State.line_postBlock (s : State) (l : LineId) : s.postBlock.line l = s.line l := by cases l <;> rfl

/-! ### Placing a request (R45, R46) -/

theorem State.placeLine_of_not_quiet {s : State} {l : LineId} (r : LineRequest) (h : (s.line l).state ≠ .quiet) :
    s.placeLine l r = s.setLine l { s.line l with queue := (s.line l).queue ++ [r] } := by
  unfold State.placeLine State.modLine
  simp only [State.line_setLine, h, if_false]

theorem State.placeLine_of_quiet {s : State} {l : LineId} (r : LineRequest) (h : (s.line l).state = .quiet) :
    s.placeLine l r = (s.setLine l { s.line l with
      queue := (s.line l).queue ++ [r], state := .calling, activity := .wake 0 false false, pace := .none,
      inFlight := none }).postBlock := by
  unfold State.placeLine State.modLine
  simp only [State.line_setLine, h, if_true, State.setLine_setLine]
  rfl

@[simp] theorem State.placeLine_positions (s : State) (l : LineId) (r : LineRequest) :
    (s.placeLine l r).positions = s.positions := by
  by_cases h : (s.line l).state = .quiet
  · rw [State.placeLine_of_quiet r h]; simp
  · rw [State.placeLine_of_not_quiet r h]; simp

/-! ### Starting a cycle or a commit -/

/-- A cycle started, its half posted and no request placed yet (R53). -/
def State.cycleStarted (s : State) (p : PosId) : State :=
  (s.setPos p { s.pos p with
    seq := .cycle, cycleNumber := (s.pos p).cycleNumber + 1, owed := false,
    timer := .running (s.pos p).applied.interval, cycle := some (CycleContext.start (s.pos p).inspectWaiting),
    inspectWaiting := [] }).postHalf p

/-- A commit started, its half posted and no request placed yet (R101). -/
def State.commitStarted (s : State) (p : PosId) : State :=
  (s.setPos p { s.pos p with
    seq := .commit, inFlight := (s.pos p).pendingUse, pendingUse := 0, commitWaiting := [],
    commit := some { base := s.knownOf (s.pos p), confirming := false, retries := 0,
                     tasks := (s.pos p).commitWaiting } }).postHalf p

theorem State.pos_cycleStarted (s : State) (p : PosId) : (s.cycleStarted p).pos p = { s.pos p with
    seq := .cycle, cycleNumber := (s.pos p).cycleNumber + 1, owed := false,
    timer := .running (s.pos p).applied.interval, cycle := some (CycleContext.start (s.pos p).inspectWaiting),
    inspectWaiting := [], edition := (s.pos p).edition + 2, pulseDirty := false } := by
  rw [State.cycleStarted, State.pos_postHalf, State.pos_setPos]

theorem State.pos_commitStarted (s : State) (p : PosId) : (s.commitStarted p).pos p = { s.pos p with
    seq := .commit, inFlight := (s.pos p).pendingUse, pendingUse := 0, commitWaiting := [],
    commit := some { base := s.knownOf (s.pos p), confirming := false, retries := 0,
                     tasks := (s.pos p).commitWaiting }, edition := (s.pos p).edition + 2, pulseDirty := false } := by
  rw [State.commitStarted, State.pos_postHalf, State.pos_setPos]

theorem State.line_cycleStarted (s : State) (p : PosId) (l : LineId) : (s.cycleStarted p).line l = s.line l := by
  rw [State.cycleStarted, State.line_postHalf, State.line_setPos]

theorem State.line_commitStarted (s : State) (p : PosId) (l : LineId) : (s.commitStarted p).line l = s.line l := by
  rw [State.commitStarted, State.line_postHalf, State.line_setPos]

theorem State.onStuckLine_cycleStarted (s : State) (p : PosId) :
    (s.cycleStarted p).onStuckLine p = decide ((s.line (s.pos p).applied.line).state = .stuck) := by
  rw [State.onStuckLine, State.line_cycleStarted, State.pos_cycleStarted]; rfl

theorem State.onStuckLine_commitStarted (s : State) (p : PosId) :
    (s.commitStarted p).onStuckLine p = decide ((s.line (s.pos p).applied.line).state = .stuck) := by
  rw [State.onStuckLine, State.line_commitStarted, State.pos_commitStarted]; rfl

theorem State.startCycle_eq (s : State) (p : PosId) : s.startCycle p =
    if (s.cycleStarted p).onStuckLine p then (s.cycleStarted p).identifyFailed p .stuck 0
    else (s.cycleStarted p).placeFor p (.readBlocks 0 7) := rfl

theorem State.startCommit_eq (s : State) (p : PosId) : s.startCommit p =
    if (s.commitStarted p).onStuckLine p then (s.commitStarted p).addUsageFailed p .stuck 0
    else (s.commitStarted p).placeFor p (.addUsage ((s.commitStarted p).pos p).inFlight) := rfl

theorem State.startCycle_of_line {s : State} {p : PosId} (h : (s.line (s.pos p).applied.line).state ≠ .stuck) :
    s.startCycle p = (s.cycleStarted p).placeLine (s.pos p).applied.line
      { requester := .position p, address := (s.pos p).applied.address, command := .readBlocks 0 7 } := by
  rw [State.startCycle_eq, State.onStuckLine_cycleStarted, decide_eq_false h, State.placeFor, State.requestOf,
    State.pos_cycleStarted]
  rfl

theorem State.startCycle_of_stuck {s : State} {p : PosId} (h : (s.line (s.pos p).applied.line).state = .stuck) :
    s.startCycle p = (s.cycleStarted p).identifyFailed p .stuck 0 := by
  rw [State.startCycle_eq, State.onStuckLine_cycleStarted, decide_eq_true h, if_pos rfl]

theorem State.startCommit_of_line {s : State} {p : PosId} (h : (s.line (s.pos p).applied.line).state ≠ .stuck) :
    s.startCommit p = (s.commitStarted p).placeLine (s.pos p).applied.line
      { requester := .position p, address := (s.pos p).applied.address, command := .addUsage (s.pos p).pendingUse } := by
  rw [State.startCommit_eq, State.onStuckLine_commitStarted, decide_eq_false h, State.placeFor, State.requestOf,
    State.pos_commitStarted]
  rfl

theorem State.startCommit_of_stuck {s : State} {p : PosId} (h : (s.line (s.pos p).applied.line).state = .stuck) :
    s.startCommit p = (s.commitStarted p).addUsageFailed p .stuck 0 := by
  rw [State.startCommit_eq, State.onStuckLine_commitStarted, decide_eq_true h, if_pos rfl]

/-! ### The choice, step by step (R8) -/

section Choice

variable {s : State} {p : PosId}

/-- The choice after a waiting half has been dealt with. -/
theorem State.choose_of_idle (hi : (s.pos p).seq = .idle) (hw : (s.pos p).editionWaiting = false) :
    s.choose p =
      if s.device ≠ .running then s
      else
        let t := if (s.pos p).owed then s.startCycle p else s
        if (t.pos p).seq ≠ .idle then t else t.commitStep p := by
  unfold State.choose
  simp only [hi, hw, Bool.false_eq_true, if_false, ne_eq, not_true_eq_false, false_or]

theorem State.choose_of_not_running (hi : (s.pos p).seq = .idle) (hw : (s.pos p).editionWaiting = false)
    (hd : s.device ≠ .running) : s.choose p = s := by
  rw [State.choose_of_idle hi hw, if_pos hd]

theorem State.choose_of_owed (hi : (s.pos p).seq = .idle) (hw : (s.pos p).editionWaiting = false)
    (hd : s.device = .running) (ho : (s.pos p).owed = true) :
    s.choose p =
      if ((s.startCycle p).pos p).seq ≠ .idle then s.startCycle p else (s.startCycle p).commitStep p := by
  rw [State.choose_of_idle hi hw, if_neg (not_not_intro hd), if_pos ho]

theorem State.choose_of_not_owed (hi : (s.pos p).seq = .idle) (hw : (s.pos p).editionWaiting = false)
    (hd : s.device = .running) (ho : (s.pos p).owed = false) : s.choose p = s.commitStep p := by
  rw [State.choose_of_idle hi hw, if_neg (not_not_intro hd), ho]
  exact if_neg (not_not_intro hi)

/-- A waiting half is examined before anything else is chosen. -/
theorem State.choose_of_waiting (hi : (s.pos p).seq = .idle) (hw : (s.pos p).editionWaiting = true) :
    s.choose p =
      let t := (s.setPos p { s.pos p with editionWaiting := false }).examineAndApply p
      if (t.pos p).seq ≠ .idle ∨ t.device ≠ .running then t
      else
        let u := if (t.pos p).owed then t.startCycle p else t
        if (u.pos p).seq ≠ .idle then u else u.commitStep p := by
  unfold State.choose
  simp only [hi, hw, if_true, ne_eq, not_true_eq_false, if_false, State.modPos_eq]

theorem Position.commitDue_iff (x : Position) : x.commitDue = true ↔ x.boundUid ≠ none ∧ x.unconfirmed = false ∧
    (x.commitWaiting ≠ [] ∨ x.applied.threshold.toNat ≤ x.pendingUse.toNat) := by
  simp [Position.commitDue, and_assoc]

end Choice

/-- Settles O17: the choice by its branches. -/
theorem sequencerChoice : Obligations.SequencerChoice := by
  intro s p
  dsimp only
  refine ⟨State.choose_of_not_idle, fun hi hw => ?_, State.choose_of_not_running, fun hi hw hd ho hl => ?_,
    fun hi hw hd ho => ⟨fun hn => ?_, fun hdue hz => ?_, fun hdue hz hl => ?_⟩⟩
  · have device : ((s.setPos p { s.pos p with editionWaiting := false }).examineAndApply p).device = s.device :=
      (Frame.device_eq (State.frame_examineAndApply _ p)).trans (State.setPos_device ..)
    rw [State.choose_of_waiting hi hw]
    dsimp only
    generalize (s.setPos p { s.pos p with editionWaiting := false }).examineAndApply p = t at device ⊢
    refine ⟨fun hd => if_pos (.inr (device ▸ hd)), fun ht => ?_⟩
    by_cases hti : (t.pos p).seq = .idle
    · rw [State.choose_of_idle hti ht]
      simp only [hti, ne_eq, not_true_eq_false, false_or]
    · rw [State.choose_of_not_idle hti, if_pos (.inl hti)]
  · have busy : ((s.startCycle p).pos p).seq ≠ .idle := by
      rw [State.startCycle_of_line hl, State.pos_congr (State.placeLine_positions ..), State.pos_cycleStarted]
      exact SeqState.noConfusion
    rw [State.choose_of_owed hi hw hd ho, if_pos busy, State.startCycle_of_line hl]
    rfl
  · rw [State.choose_of_not_owed hi hw hd ho]
    exact if_neg fun e => hn ((Position.commitDue_iff _).1 e)
  · rw [State.choose_of_not_owed hi hw hd ho, State.commitStep, if_pos ((Position.commitDue_iff _).2 hdue), if_pos hz]
    rfl
  · rw [State.choose_of_not_owed hi hw hd ho, State.commitStep, if_pos ((Position.commitDue_iff _).2 hdue), if_neg hz,
      State.startCommit_of_line hl]
    rfl

/-! ### The end of a cycle without findings (R69, R70) -/

@[simp] theorem hasAny_zero (m : Word16) : hasAny 0 m = false := by simp [hasAny]

/-- An inconclusive result moves findings and reason alone (R137). -/
theorem State.applyResult_inconclusive (s : State) (p : PosId) (u : Option Word64) (r : Reason) (lim : Limits) :
    s.applyResult p { kind := .inconclusive, concerned := u, findings := 0, reason := r, limits := lim } =
      s.modPos p (fun x => { x with findings := 0, reason := r }) := by
  have silent : ¬ (0 : Word16) = fSilent := by decide
  have retired : hasAny 0 fRetired = false := hasAny_zero _
  have immediate : hasAny 0 immediateMask = false := hasAny_zero _
  unfold State.applyResult
  dsimp only
  simp only [retired, immediate, silent, Bool.false_eq_true, false_and, if_false, ne_eq, not_true_eq_false, ite_self]

theorem foldl_complete_positions {α : Type} (f : State → α → State) (hf : ∀ s a, (f s a).positions = s.positions)
    (l : List α) (s : State) : (l.foldl f s).positions = s.positions := by
  induction l generalizing s with
  | nil => rfl
  | cons a l ih => rw [List.foldl_cons, ih, hf]

@[simp] theorem State.completeInspects_positions (s : State) (p : PosId) (ks : List SlotId) (ran : Bool) (kind : Byte) :
    (s.completeInspects p ks ran kind).positions = s.positions :=
  foldl_complete_positions _ (fun _ _ => State.complete_positions ..) ks s

/-- Position `p` after a result of the cycle has been handed: what the verdict unit left of it, and the items of the
cycle (R55, R69). -/
theorem State.pos_endCycle (s : State) (p : PosId) (kind : ResultKind) (f : Word16) (r : Reason) (lim : Limits) :
    (s.endCycle p kind f r lim).pos p =
      let t := (s.evaluateWear p).handResult p
        { kind := kind, concerned := (s.pos p).boundUid, findings := f, reason := r, limits := lim }
      let x := (t.pos p).recordCycle (s.context p) (t.knownOf (t.pos p))
      { x with edition := x.edition + 2, pulseDirty := false } := by
  unfold State.endCycle
  dsimp only
  rw [State.pos_congr (State.completeInspects_positions ..), State.pos_postHalf, State.pos_modPos]

theorem State.handResult_positions (s : State) (p : PosId) (r : Result) :
    (s.handResult p r).positions = (s.applyResult p r).positions := by
  unfold State.handResult
  dsimp only
  split <;> simp

/-- An inconclusive end leaves the sequencer IDLE with nothing new to choose (R70). -/
theorem State.endInconclusive_work (s : State) (p : PosId) (r : Reason) :
    ((s.endInconclusive p r).pos p).editionWaiting = (s.pos p).editionWaiting ∧
      ((s.endInconclusive p r).pos p).owed = (s.pos p).owed := by
  rw [State.endInconclusive, State.pos_endCycle]
  simp only [Position.recordCycle, State.pos_congr (State.handResult_positions ..), State.applyResult_inconclusive,
    State.pos_modPos, State.evaluateWear, and_self]

theorem State.identifyFailed_of_heard {s : State} {p : PosId} {e : LineError} (h : e ≠ .noReply) (n : Nat) :
    s.identifyFailed p e n = ((s.modPos p (fun x => { x with lastLineError := some e })).modContext p
      (fun c => { c with identifyRetries := n })).endInconclusive p .link := if_neg h

/-- A cycle that a STUCK line ends at once leaves nothing waiting and nothing owed. -/
theorem State.identifyFailed_stuck_work (s : State) (p : PosId) (n : Nat) :
    ((s.identifyFailed p .stuck n).pos p).editionWaiting = (s.pos p).editionWaiting ∧
      ((s.identifyFailed p .stuck n).pos p).owed = (s.pos p).owed := by
  rw [State.identifyFailed_of_heard LineError.noConfusion]
  obtain ⟨he, ho⟩ := State.endInconclusive_work
    ((s.modPos p (fun x => { x with lastLineError := some .stuck })).modContext p
      (fun c => { c with identifyRetries := n })) p .link
  rw [he, ho, State.modContext, State.modPos_modPos, State.pos_modPos]
  exact ⟨rfl, rfl⟩

/-! ### Failures handed at once (R43) -/

/-- The IDENTIFY of a cycle that has just started fails. -/
theorem State.positionLine_cycleStarted (s : State) (p : PosId) (e : LineError) (n : Nat) :
    (s.cycleStarted p).positionLine p (.failure e n) = (s.cycleStarted p).identifyFailed p e n := by
  have seq : ((s.cycleStarted p).pos p).seq = .cycle := by rw [State.pos_cycleStarted]
  have stage : ((s.cycleStarted p).context p).stage = .identify := by rw [State.context, State.pos_cycleStarted]; rfl
  unfold State.positionLine
  simp only [seq, stage]

theorem State.positionLine_addUsage {s : State} {p : PosId} (hs : (s.pos p).seq = .commit)
    (hc : (s.commitOf p).confirming = false) (e : LineError) (n : Nat) :
    s.positionLine p (.failure e n) = s.addUsageFailed p e n := by
  unfold State.positionLine
  simp only [hs, hc]

theorem State.positionLine_confirm {s : State} {p : PosId} (hs : (s.pos p).seq = .commit)
    (hc : (s.commitOf p).confirming = true) (e : LineError) (n : Nat) :
    s.positionLine p (.failure e n) = s.confirmFailed p e n := by
  unfold State.positionLine
  simp only [hs, hc]

/-- Settles O16: a request is queued by the state of its line, and on a STUCK line the call that would place it hands
the failure instead. -/
theorem requestPlaced : Obligations.RequestPlaced := by
  refine ⟨fun s l r => ⟨fun hq _ => State.placeLine_of_not_quiet r hq, State.placeLine_of_quiet r⟩, fun s p => ?_⟩
  dsimp only
  refine fun hl => ⟨fun hi hw hd ho => ?_, fun hi hw hd ho hb hu hdue hz => ?_, fun c e n hs hc hn => ?_⟩
  · have failed := s.positionLine_cycleStarted p .stuck 0
    obtain ⟨waiting, owed⟩ := (s.cycleStarted p).identifyFailed_stuck_work p 0
    have device : ((s.cycleStarted p).identifyFailed p .stuck 0).device = .running :=
      (Frame.device_eq (State.frame_identifyFailed ..)).trans hd
    have same : ((s.cycleStarted p).positionLine p (.failure .stuck 0)).choose p = s.choose p := by
      rw [failed, State.choose_of_owed hi hw hd ho, State.startCycle_of_stuck hl]
      rw [State.pos_cycleStarted] at waiting owed
      by_cases hv : (((s.cycleStarted p).identifyFailed p .stuck 0).pos p).seq = .idle
      · rw [if_neg (not_not_intro hv), State.choose_of_not_owed hv (waiting.trans hw) device owed]
      · rw [if_pos hv, State.choose_of_not_idle hv]
    exact same.symm
  · have due : (s.pos p).commitDue = true := (Position.commitDue_iff _).2 ⟨hb, hu, hdue.symm⟩
    have seq : ((s.commitStarted p).pos p).seq = .commit := by rw [State.pos_commitStarted]
    have stage : ((s.commitStarted p).commitOf p).confirming = false := by
      rw [State.commitOf, State.pos_commitStarted]; rfl
    rw [State.choose_of_not_owed hi hw hd ho, State.commitStep, if_pos due, if_neg hz, State.startCommit_of_stuck hl]
    exact (State.positionLine_addUsage seq stage .stuck 0).symm
  · have before : (s.commitOf p).confirming = false := by rw [State.commitOf, hc]; exact hn
    rw [State.positionLine_addUsage hs before]
    have marked : (s.addRetries p n).modPos p (fun x => { x with
        lastLineError := some e, commit := x.commit.map (fun c => { c with confirming := true }) }) =
        s.setPos p { s.pos p with
          lastLineError := some e, commit := some { c with confirming := true, retries := c.retries + n } } := by
      rw [State.addRetries, State.modPos_modPos, State.modPos_eq, hc]
      rfl
    unfold State.addUsageFailed
    dsimp only
    rw [marked]
    generalize hu : s.setPos p _ = u
    have seq : (u.pos p).seq = .commit := by rw [← hu, State.pos_setPos]; exact hs
    have stage : (u.commitOf p).confirming = true := by rw [← hu, State.commitOf, State.pos_setPos]; rfl
    have stuck : u.onStuckLine p = true := by
      rw [← hu, State.onStuckLine, State.pos_setPos, State.line_setPos]; exact decide_eq_true hl
    rw [if_pos stuck, State.positionLine_confirm seq stage]

end Sys2Proof.Machine
end
section
/-! SUPPORT. The tasks as they are taken: INSPECT, USAGE_COMMIT, TAG_READ, TAG_WRITE, CAL_LOAD, CALIBRATE, the permit
holds, CLASS_DROP, the key tasks and the key store serving them (chapters Task Unit, Run Permits, Key Store). -/
namespace Sys2Proof.Machine

/-! ### Codes and completions -/

theorem finOfCode_of_le {n : Nat} {b : Byte} (h : n ≤ b.toNat) : finOfCode n b = none := dif_neg (Nat.not_lt.2 h)

theorem finOfCode_of_eq {n : Nat} {b : Byte} {i : Fin n} (h : b.toNat = i.val) : finOfCode n b = some i := by
  have hlt : b.toNat < n := h ▸ i.isLt
  rw [finOfCode, dif_pos hlt]
  exact congrArg some (Fin.ext h)

theorem calKindOfCode_eq (b : Byte) :
    calKindOfCode b = if b.toNat ≤ 1 then some (if b = 0 then .offset else .gain) else none := twoCode_eq b _ _

/-- A slot in device hands that is completed reads DONE and is ANSWERED (R186). -/
theorem State.complete_of_taken {s : State} {k : SlotId} (h : s.owner k = ownerTaken) (st : TaskStatus)
    (d : List Byte) : (s.complete k st d).owner k = ownerDone ∧ ((s.complete k st d).slot k).mark = .answered := by
  have given : ¬ (s.owner k = ownerFree ∨ s.owner k = ownerDone) := by rw [h]; decide
  rw [State.complete_owner, State.complete_slot, if_neg given, if_neg given]
  exact ⟨rfl, rfl⟩

theorem State.completeFree_of_taken {s : State} {k : SlotId} (h : s.owner k = ownerTaken) (st : TaskStatus) :
    (s.completeFree k st).owner k = ownerDone ∧ ((s.completeFree k st).slot k).mark = .answered :=
  State.complete_of_taken h st _

/-! ### INSPECT and USAGE_COMMIT (R73, R102) -/

theorem exec_inspect_of_head {s : State} {k : SlotId} {rest : List WatchId} (h : s.taskAtHead k 0x01 rest) :
    exec .inspect s = .next (State.inspectTask k (s.taken k rest)).finish :=
  congrArg Host.Outcome.next (State.runTask_of_head h _)

theorem exec_usageCommit_of_head {s : State} {k : SlotId} {rest : List WatchId} (h : s.taskAtHead k 0x07 rest) :
    exec .usageCommit s = .next (State.usageCommitTask k (s.taken k rest)).finish :=
  congrArg Host.Outcome.next (State.runTask_of_head h _)

/-- Settles O32: both tasks by their position and its state. -/
theorem positionTasksAttach : Obligations.PositionTasksAttach := by
  intro s k rest
  refine ⟨fun h => ?_, fun h => ?_⟩
  · rw [exec_inspect_of_head h]
    unfold State.inspectTask
    rw [State.taken_payload]
    refine ⟨fun hn => by rw [finOfCode_of_le hn], fun p hp => ?_⟩
    rw [finOfCode_of_eq hp]
    dsimp only
    rw [State.taken_pos]
    refine ⟨fun he => by rw [he]; rfl, fun he ho => ?_, fun he ho => ?_⟩
    · rw [if_pos he, State.attachInspect, State.taken_pos, if_pos ho]
    · rw [if_pos he, State.attachInspect, State.taken_pos, ho]; rfl
  · rw [exec_usageCommit_of_head h]
    unfold State.usageCommitTask
    rw [State.taken_payload]
    refine ⟨fun hn => by rw [finOfCode_of_le hn], fun p hp => ?_⟩
    rw [finOfCode_of_eq hp]
    dsimp only
    rw [State.taken_pos]
    exact ⟨fun hr => by rw [if_pos hr], fun hr => by rw [if_neg hr]⟩

/-! ### TAG_READ and TAG_WRITE (R27, R28) -/

theorem exec_tagRead_of_head {s : State} {k : SlotId} {rest : List WatchId} (h : s.taskAtHead k 0x02 rest) :
    exec .tagRead s = .next (State.tagReadTask k (s.taken k rest)).finish :=
  congrArg Host.Outcome.next (State.runTask_of_head h _)

theorem exec_tagWrite_of_head {s : State} {k : SlotId} {rest : List WatchId} (h : s.taskAtHead k 0x03 rest) :
    exec .tagWrite s = .next (State.tagWriteTask k (s.taken k rest)).finish :=
  congrArg Host.Outcome.next (State.runTask_of_head h _)

theorem State.placeTask_of_line {s : State} {l : LineId} (h : (s.line l).state ≠ .stuck) (k : SlotId) (a : Byte)
    (c : LineCommand) :
    s.placeTask k l a c = s.placeLine l { requester := .task k, address := a, command := c } := if_neg h

/-- On a STUCK line the task ends at once (R43). -/
theorem State.placeTask_of_stuck {s : State} {l : LineId} (h : (s.line l).state = .stuck) (k : SlotId) (a : Byte)
    (c : LineCommand) : ∃ d : Byte, s.placeTask k l a c = (s.complete k .lineStuck [d, 0, 0, 0, 0, 6]).draw :=
  ⟨Config.unstatedByte s.free 0, if_pos h⟩

theorem addressOk_iff (a : Byte) : addressOk a = true ↔ 1 ≤ a.toNat ∧ a.toNat ≤ 31 := decide_eq_true_iff

/-- Settles O33: both tasks by the line, the address and the blocks that their payload names. -/
theorem tagTasksPlaced : Obligations.TagTasksPlaced := by
  intro s k rest
  dsimp only
  have line : ∀ l, ((s.taken k rest).line l).state = (s.line l).state := fun l => by rw [State.taken_line]
  refine ⟨fun h => ?_, fun h => ?_⟩
  · rw [exec_tagRead_of_head h]
    unfold State.tagReadTask
    dsimp only
    rw [State.taken_payload, lineOfCode_eq]
    refine ⟨fun hn => ?_, fun hl ha hc hs => ?_, fun hl ha hc hs => ?_⟩
    · by_cases hl : (byteAt (s.slotPayload k) 0).toNat ≤ 1
      · have bad : ¬ (addressOk (byteAt (s.slotPayload k) 1) = true ∧ 1 ≤ (byteAt (s.slotPayload k) 3).toNat ∧
            (byteAt (s.slotPayload k) 3).toNat ≤ 8) := fun e => hn ⟨hl, (addressOk_iff _).1 e.1, e.2⟩
        rw [if_pos hl]
        dsimp only
        rw [if_neg bad]
      · rw [if_neg hl]
    · rw [if_pos hl]
      dsimp only
      rw [if_pos ⟨(addressOk_iff _).2 ha, hc⟩, State.placeTask_of_line (by rw [line]; exact hs)]
    · rw [if_pos hl]
      dsimp only
      rw [if_pos ⟨(addressOk_iff _).2 ha, hc⟩]
      obtain ⟨d, e⟩ := State.placeTask_of_stuck ((line _).trans hs) k (byteAt (s.slotPayload k) 1)
        (.readBlocks (byteAt (s.slotPayload k) 2) (byteAt (s.slotPayload k) 3))
      exact ⟨d, by rw [e]⟩
  · rw [exec_tagWrite_of_head h]
    unfold State.tagWriteTask
    dsimp only
    rw [State.taken_payload, lineOfCode_eq]
    have good : 1 ≤ (byteAt (s.slotPayload k) 1).toNat ∧ (byteAt (s.slotPayload k) 1).toNat ≤ 31 →
        ¬ addressOk (byteAt (s.slotPayload k) 1) = false := fun ha => by
      rw [(addressOk_iff _).2 ha]; exact Bool.noConfusion
    refine ⟨fun hn => ?_, fun hl ha hb => ?_, fun hl ha hb => ?_, fun hl ha hb hb' hs => ?_, fun hl ha hb hb' hs => ?_⟩
    · by_cases hl : (byteAt (s.slotPayload k) 0).toNat ≤ 1
      · have bad : addressOk (byteAt (s.slotPayload k) 1) = false :=
          Bool.eq_false_iff.2 fun e => hn ⟨hl, (addressOk_iff _).1 e⟩
        rw [if_pos hl]
        dsimp only
        rw [if_pos bad]
      · rw [if_neg hl]
    · rw [if_pos hl]
      dsimp only
      rw [if_neg (good ha), if_pos hb]
    · rw [if_pos hl]
      dsimp only
      rw [if_neg (good ha), if_neg (by omega), if_pos hb]
    · rw [if_pos hl]
      dsimp only
      rw [if_neg (good ha), if_neg (by omega), if_neg (by omega), State.placeTask_of_line (by rw [line]; exact hs)]
    · rw [if_pos hl]
      dsimp only
      rw [if_neg (good ha), if_neg (by omega), if_neg (by omega)]
      obtain ⟨d, e⟩ := State.placeTask_of_stuck ((line _).trans hs) k (byteAt (s.slotPayload k) 1)
        (.writeBlock (byteAt (s.slotPayload k) 2) (word32At (s.slotPayload k) 4))
      exact ⟨d, by rw [e]⟩

/-! ### CAL_LOAD and CALIBRATE (R84, R85) -/

theorem exec_calLoad_of_head {s : State} {k : SlotId} {rest : List WatchId} (h : s.taskAtHead k 0x05 rest) :
    exec .calLoad s = .next (State.calLoadTask k (s.taken k rest)) :=
  congrArg Host.Outcome.next (State.runTask_of_head h _)

theorem exec_calibrate_of_head {s : State} {k : SlotId} {rest : List WatchId} (h : s.taskAtHead k 0x06 rest) :
    exec .calibrate s = .next (State.calibrateTask k (s.taken k rest)) :=
  congrArg Host.Outcome.next (State.runTask_of_head h _)

theorem clampInt_eq_max_min {lo hi : Int} (h : lo ≤ hi) (v : Int) : clampInt lo hi v = max lo (min hi v) := by
  unfold clampInt
  (repeat' split) <;> omega

theorem clampCal_offset (o : Word16) (g : Word32) : (clampCal o g).offset.toInt = max (-2048) (min 2047 o.toInt) := by
  have e := clampInt_eq_max_min (show (-2048 : Int) ≤ 2047 by omega) o.toInt
  rw [clampCal, toInt_ofInt_of_offset (by omega) (by omega), e]

theorem clampCal_gain (o : Word16) (g : Word32) : (clampCal o g).gain.toNat = max 1 (min 16777215 g.toNat) := by
  have e := clampNat_eq_max_min (show 1 ≤ 16777215 by omega) g.toNat
  rw [clampCal, toNat_ofNat_of_gain (by omega), e]

/-- Settles O35: the record is the payload's two values clamped. -/
theorem calLoadClamps : Obligations.CalLoadClamps := by
  intro s k rest h
  dsimp only
  have taken := s.taken_owner k rest
  rw [exec_calLoad_of_head h]
  unfold State.calLoadTask
  dsimp only
  rw [State.taken_payload]
  refine ⟨fun t ht => ?_, fun hn => by rw [finOfCode_of_le hn], fun c hc => ?_⟩
  · obtain rfl := Host.Outcome.next.inj ht
    split
    · exact State.completeFree_of_taken taken _
    · exact State.complete_of_taken (s := (s.taken k rest).setCal _ _) taken _ _
  · refine ⟨clampCal (word16At (s.slotPayload k) 2) (word32At (s.slotPayload k) 4), clampCal_offset _ _,
      clampCal_gain _ _, ?_⟩
    rw [finOfCode_of_eq hc]
    dsimp only
    rw [ite_congr (propext (and_congr BitVec.toInt_inj.symm BitVec.toNat_inj.symm)) (fun _ => rfl) (fun _ => rfl)]
    rfl

theorem MeasRequest.slot_ne_none_iff (r : MeasRequest) :
    r.slot ≠ none ↔ ∃ c j kd v, r = { channel := c, kind := .calibrate j kd v } := by
  obtain ⟨c, kind⟩ := r
  cases kind <;> simp [MeasRequest.slot]

/-- Settles O36: by the payload's channel, kind and reference, then by the channel's use and the CALIBRATE before it. -/
theorem calibrateQueued : Obligations.CalibrateQueued := by
  intro s k rest h
  dsimp only
  have busy : (s.taken k rest).meas.calibrating = true ↔
      (∃ r ∈ s.meas.queue, ∃ c j kd v, r = ({ channel := c, kind := .calibrate j kd v } : MeasRequest)) ∨
        ∃ f, s.meas.inFlight = some f ∧
          ∃ c j kd v, f.request = ({ channel := c, kind := .calibrate j kd v } : MeasRequest) := by
    simp only [← MeasRequest.slot_ne_none_iff]
    exact MeasUnit.calibrating_iff s.meas
  have used : ∀ c, (s.taken k rest).channelInUse c = true ↔
      ∃ p, (s.pos p).enabled = true ∧ (s.pos p).applied.channel = some c := fun c => State.channelInUse_iff s c
  rw [exec_calibrate_of_head h]
  unfold State.calibrateTask
  dsimp only
  rw [State.taken_payload, calKindOfCode_eq]
  refine ⟨fun hn => ?_, fun c hc hv => ?_⟩
  · by_cases hc : (byteAt (s.slotPayload k) 0).toNat < 24
    · rw [finOfCode_of_eq (i := ⟨_, hc⟩) rfl]
      by_cases hk : (byteAt (s.slotPayload k) 1).toNat ≤ 1
      · rw [if_pos hk]
        dsimp only
        rw [if_pos]
        refine Classical.byContradiction fun e => hn ⟨hc, hk, fun hg => ?_⟩
        have hr := not_and.1 e hg
        omega
      · rw [if_neg hk]
    · rw [finOfCode_of_le (by omega)]
  · obtain ⟨-, hk, hr⟩ := hv
    have range : ¬ ((if byteAt (s.slotPayload k) 1 = 0 then CalKind.offset else CalKind.gain) = .gain ∧
        ((word32At (s.slotPayload k) 4).toNat = 0 ∨ 4000000 < (word32At (s.slotPayload k) 4).toNat)) := fun e => by
      have := hr e.1; omega
    rw [finOfCode_of_eq hc, if_pos hk]
    dsimp only
    rw [if_neg range]
    refine ⟨fun hu => by rw [if_pos ((used c).2 hu)], fun hu ha => ?_, fun hu ha => ?_⟩
    · rw [if_neg (mt (used c).1 hu), if_neg (mt busy.1 ha)]; rfl
    · rw [if_neg (mt (used c).1 hu), if_pos (busy.2 ha)]; rfl

/-! ### PERMIT_HOLD and PERMIT_FREE (R160) -/

theorem exec_permitHold_of_head {s : State} {k : SlotId} {rest : List WatchId} (h : s.taskAtHead k 0x0D rest) :
    exec .permitHold s = .next (State.permitHoldTask k (s.taken k rest)) :=
  congrArg Host.Outcome.next (State.runTask_of_head h _)

theorem exec_permitFree_of_head {s : State} {k : SlotId} {rest : List WatchId} (h : s.taskAtHead k 0x0E rest) :
    exec .permitFree s = .next (State.permitFreeTask k (s.taken k rest)) :=
  congrArg Host.Outcome.next (State.runTask_of_head h _)

/-- What an evaluation with its posting leaves: the permits, the attention, the block posted. -/
theorem State.evaluateAndPost_eq (s : State) : s.evaluateAndPost = { s with
    permits := s.evaluateAndPost.permits, attention := s.evaluateAndPost.attention, mem := s.evaluateAndPost.mem,
    blockEdition := s.blockEdition + 2, blockDirty := false } := rfl

@[simp] theorem State.evaluateAndPost_holds (s : State) : s.evaluateAndPost.permits.holds = s.permits.holds := rfl

@[simp] theorem State.evaluateAndPost_groupEnable (s : State) :
    s.evaluateAndPost.permits.groupEnable = s.permits.groupEnable := rfl

/-- A posting sets POSTED. -/
theorem State.postBlock_posted (s : State) : s.postBlock.attention.getLsbD 0 = true := by
  show (s.attention ||| attPosted).getLsbD 0 = true
  rw [BitVec.getLsbD_or, show attPosted.getLsbD 0 = true from rfl, Bool.or_true]

theorem State.evaluateAndPost_posted (s : State) : s.evaluateAndPost.attention.getLsbD 0 = true :=
  State.postBlock_posted _

/-- PERMIT is set when the permit word changes (R156). -/
theorem State.evaluateAndPost_permit {s : State} (h : s.evaluateAndPost.permits.permitWord ≠ s.permits.permitWord) :
    s.evaluateAndPost.attention.getLsbD 1 = true := by
  have changed : permitWordOf s.blockerSets ≠ s.permits.permitWord := h
  refine getLsbD_or_left _ ?_
  rw [State.settlePermits]
  dsimp only
  rw [if_neg changed, BitVec.getLsbD_or, show attPermit.getLsbD 1 = true from rfl, Bool.or_true]

theorem State.evaluateAndPost_host (s : State) {a : Nat} (ha : hostByte a = true) :
    s.evaluateAndPost.mem.read a = s.mem.read a := Frame.host_eq (State.frame_evaluateAndPost s) ha

/-- Taking a slot writes none of the host's bytes. -/
theorem State.taken_host (s : State) (k : SlotId) (rest : List WatchId) {a : Nat} (ha : hostByte a = true) :
    (s.taken k rest).mem.read a = s.mem.read a :=
  read_of_hostBytes (congrArg Frame.host (s.frame_taken k rest)) ha

theorem State.holdMask_of_gt {s : State} {k : SlotId} (h : 255 < (word16At (s.payload k) 0).toNat) :
    s.holdMask k = none := if_pos h

theorem State.holdMask_of_le {s : State} {k : SlotId} (h : (word16At (s.payload k) 0).toNat ≤ 255) :
    s.holdMask k = some ((word16At (s.payload k) 0).setWidth 8) := if_neg (Nat.not_lt.2 h)

/-- Settles O40: the latches by the mask, then an evaluation with its posting, then the result. -/
theorem holdsSetAndFreed : Obligations.HoldsSetAndFreed := by
  intro s k rest
  dsimp only
  have held : ∀ (c : Instr) (m : Byte), exec c s = .next ((s.taken k rest).setHolds k m) → ∃ v : State,
      exec c s = .next (v.complete k .ok [m, v.permits.permitWord]) ∧ v.permits.holds = m ∧
      v.permits.groupEnable = s.permits.groupEnable ∧ v.permitsCurrent = true ∧
      v = { s.taken k rest with
        permits := v.permits, attention := v.attention, mem := v.mem, blockEdition := s.blockEdition + 2,
        blockDirty := false } ∧
      v.attention.getLsbD 0 = true ∧
      (v.permits.permitWord ≠ s.permits.permitWord → v.attention.getLsbD 1 = true) ∧
      ∀ a, hostByte a = true → v.mem.read a = s.mem.read a := fun c m hc =>
    ⟨({ s.taken k rest with permits := { s.permits with holds := m } } : State).evaluateAndPost, hc, rfl, rfl,
      State.evaluateAndPost_current _, rfl, State.evaluateAndPost_posted _,
      fun hw => State.evaluateAndPost_permit hw, fun a ha => (State.evaluateAndPost_host _ ha).trans (s.taken_host k rest ha)⟩
  have payload := s.taken_payload k rest
  refine ⟨fun h => ⟨fun hm => ?_, fun hm => ?_⟩, fun h => ⟨fun hm => ?_, fun hm => ?_⟩⟩
  · rw [exec_permitHold_of_head h, State.permitHoldTask, State.holdMask_of_gt (by rw [payload]; exact hm)]
  · refine held _ _ ?_
    rw [exec_permitHold_of_head h, State.permitHoldTask, State.holdMask_of_le (by rw [payload]; exact hm), payload]
    rfl
  · rw [exec_permitFree_of_head h, State.permitFreeTask, State.holdMask_of_gt (by rw [payload]; exact hm)]
  · refine held _ _ ?_
    rw [exec_permitFree_of_head h, State.permitFreeTask, State.holdMask_of_le (by rw [payload]; exact hm), payload]
    rfl

/-! ### CLASS_DROP (R164) -/

theorem exec_classDrop_of_head {s : State} {k : SlotId} {rest : List WatchId} (h : s.taskAtHead k 0x10 rest) :
    exec .classDrop s = .next (State.classDropTask k (s.taken k rest)) :=
  congrArg Host.Outcome.next (State.runTask_of_head h _)

theorem State.classOf_eq_none_iff (s : State) (code : Word16) :
    s.classOf code = none ↔ ∀ c ∈ s.classes, c.code ≠ code := by
  simp [State.classOf]

/-- Settles O42: by the payload's code. -/
theorem classDropped : Obligations.ClassDropped := by
  intro s k rest h
  dsimp only
  have taken := s.taken_owner k rest
  have known : (s.taken k rest).classOf (word16At (s.slotPayload k) 0) = none ↔
      ∀ c ∈ s.classes, c.code ≠ word16At (s.slotPayload k) 0 := State.classOf_eq_none_iff s _
  rw [exec_classDrop_of_head h]
  unfold State.classDropTask
  dsimp only
  rw [State.taken_payload]
  refine ⟨fun t ht => ?_, fun hc => by rw [if_pos hc], fun hc hn => by rw [if_neg hc, if_pos (known.2 hn)],
    fun hc hn => ?_⟩
  · obtain rfl := Host.Outcome.next.inj ht
    split
    · exact State.completeFree_of_taken taken _
    · split
      · exact State.completeFree_of_taken taken _
      · have left : ({ s.taken k rest with
            classes := s.classes.filter (fun c => decide (c.code ≠ word16At (s.slotPayload k) 0)) } : State).owner k =
            ownerTaken := taken
        exact State.complete_of_taken ((State.postBlock_owner _ k).trans left) _ _
  · obtain ⟨c, hm, e⟩ := hn
    rw [if_neg hc, if_neg fun e' => known.1 e' c hm e]
    rfl

/-! ### Key tasks (R168 to R172) -/

theorem exec_keysUnlock_of_head {s : State} {k : SlotId} {rest : List WatchId} (h : s.taskAtHead k 0x13 rest) :
    exec .keysUnlock s = .next ((s.taken k rest).queueKey k (.unlock (keyAt (s.slotPayload k) 0))) := by
  have run := State.runTask_of_head h fun k t => t.queueKey k (.unlock (keyAt (t.payload k) 0))
  rw [State.taken_payload] at run
  exact congrArg Host.Outcome.next run

theorem exec_keysLock_of_head {s : State} {k : SlotId} {rest : List WatchId} (h : s.taskAtHead k 0x14 rest) :
    exec .keysLock s = .next ((s.taken k rest).queueKey k .lock) :=
  congrArg Host.Outcome.next (State.runTask_of_head h fun k t => t.queueKey k .lock)

/-- Settles O43: a key task joins the queue by its kind. -/
theorem keyTasksQueued : Obligations.KeyTasksQueued := by
  intro s k rest
  dsimp only
  have payload := s.taken_payload k rest
  refine ⟨fun h => ?_, fun h => ?_, fun h => ?_, fun h => ?_⟩
  · rw [show exec .keyLoad s = .next (State.keyLoadTask k (s.taken k rest)) from
      congrArg Host.Outcome.next (State.runTask_of_head h _), State.keyLoadTask, payload]
    exact ⟨fun hn => by rw [finOfCode_of_le hn], fun i hi => by rw [finOfCode_of_eq hi]; rfl⟩
  · rw [show exec .keyErase s = .next (State.keyEraseTask k (s.taken k rest)) from
      congrArg Host.Outcome.next (State.runTask_of_head h _), State.keyEraseTask, payload]
    exact ⟨fun hn => by rw [finOfCode_of_le hn], fun i hi => by rw [finOfCode_of_eq hi]; rfl⟩
  · rw [exec_keysUnlock_of_head h]; rfl
  · rw [exec_keysLock_of_head h]; rfl

theorem KeyStore.storeKey_of_valid {k : KeyStore} {v : Key} (h : k.slots[0] = .valid v) : k.storeKey = some v := by
  rw [KeyStore.storeKey, h]

theorem KeyStore.storeKey_of_not_valid {k : KeyStore} (h : ¬ (k.slots[0]).isValid = true) : k.storeKey = none := by
  unfold KeyStore.storeKey
  split
  · rfl
  · rename_i e; rw [e] at h; exact absurd rfl h
  · rfl

theorem KeySlot.isValid_iff (x : KeySlot) : x.isValid = true ↔ ∃ v, x = .valid v := by
  cases x <;> simp [KeySlot.isValid]

theorem exec_keyTaskServe_of_head {s : State} {t : KeyTask} {rest : List KeyTask} (hp : s.power = .on)
    (hw : s.keys.writing = none) (hq : s.keys.queue = t :: rest) :
    exec .keyTaskServe s = .next ((s.setKeys { s.keys with queue := rest }).serveKey t) := by
  change execKeyTaskServe s = _
  rw [execKeyTaskServe, hq]
  exact congrArg Host.Outcome.next (if_pos ⟨hp, hw⟩)

/-- Settles O44: the end of a write, and the head of the queue by its operation. -/
theorem keyTaskServed : Obligations.KeyTaskServed := by
  refine ⟨fun s w hp hw => ?_, fun s k op rest hp hw hq => ?_⟩
  · have ended : exec .keyWriteEnd s = .next (s.endKeyWrite w) := by
      change execKeyWriteEnd s = _
      rw [execKeyWriteEnd, hw]
      exact congrArg Host.Outcome.next (if_pos hp)
    refine ⟨fun ht => ?_, fun k ht => ?_⟩
    · rw [ended, State.endKeyWrite, ht]; rfl
    · rw [ended, State.endKeyWrite, ht]; rfl
  · dsimp only
    rw [exec_keyTaskServe_of_head hp hw hq]
    have key : ∀ v, s.keys.slots[0] = .valid v → KeyStore.storeKey { s.keys with queue := rest } = some v := fun v h =>
      KeyStore.storeKey_of_valid h
    have no_key : ¬ (s.keys.slots[0]).isValid = true → KeyStore.storeKey { s.keys with queue := rest } = none := fun h =>
      KeyStore.storeKey_of_not_valid h
    refine ⟨fun v hop => ?_, fun hop => ?_, fun i v hop => ?_, fun i hop => ?_⟩
    · subst hop
      have served : ∀ (x : KeyStore) (st : TaskStatus), KeyStore.unlock { s.keys with queue := rest } v = (x, st) →
          (s.setKeys { s.keys with queue := rest }).serveKey { slot := k, op := .unlock v } =
            (({ s with keys := x } : State).postBlock).complete k st
              [flagByte x.locked, BitVec.ofNat 8 x.attempts] := fun x st e => by
        show State.serveUnlock _ k v = _
        unfold State.serveUnlock
        rw [show (s.setKeys { s.keys with queue := rest }).keys.unlock v = (x, st) from e]
        rfl
      refine ⟨fun h => ?_, fun w h ha => ?_, fun h ha => ?_, fun w h ha hv => ?_⟩
      · rw [served { s.keys with queue := rest } .refused]
        rw [KeyStore.unlock, no_key h]
      · rw [served { s.keys with queue := rest } .blocked, show BitVec.ofNat 8 _ = (0 : Byte) from congrArg _ ha]
        rw [KeyStore.unlock, key w h]
        exact if_pos ha
      · rw [served { s.keys with queue := rest, locked := false, attempts := 3 } .ok]
        · rfl
        · rw [KeyStore.unlock, key v h]
          exact (if_neg ha).trans (if_pos rfl)
      · rw [served { s.keys with queue := rest, locked := true, attempts := s.keys.attempts - 1 } .wrongKey]
        · rfl
        · rw [KeyStore.unlock, key w h]
          exact (if_neg ha).trans (if_neg hv)
    · subst hop
      have served : ∀ (x : KeyStore) (st : TaskStatus), KeyStore.lock { s.keys with queue := rest } = (x, st) →
          (s.setKeys { s.keys with queue := rest }).serveKey { slot := k, op := .lock } =
            (({ s with keys := x } : State).postBlock).complete k st [flagByte x.locked] := fun x st e => by
        show State.serveLock _ k = _
        unfold State.serveLock
        rw [show (s.setKeys { s.keys with queue := rest }).keys.lock = (x, st) from e]
        rfl
      refine ⟨fun h => ?_, fun h => ?_⟩
      · obtain ⟨v, hv⟩ := (KeySlot.isValid_iff _).1 h
        rw [served { s.keys with queue := rest, locked := true } .ok]
        · rfl
        · rw [KeyStore.lock, key v hv]
      · rw [served { s.keys with queue := rest } .refused]
        rw [KeyStore.lock, no_key h]
    · subst hop
      have served : (s.setKeys { s.keys with queue := rest }).serveKey { slot := k, op := .load i v } =
          State.serveLoad (s.setKeys { s.keys with queue := rest }) k i v := rfl
      rw [served, State.serveLoad]
      refine ⟨fun hl => ?_, fun hl => ?_⟩
      · rw [if_pos (show (s.setKeys { s.keys with queue := rest }).keys.locked = true from hl)]; rfl
      · rw [if_neg (show ¬ (s.setKeys { s.keys with queue := rest }).keys.locked = true from Bool.eq_false_iff.1 hl)]
        rfl
    · subst hop
      have served : (s.setKeys { s.keys with queue := rest }).serveKey { slot := k, op := .erase i } =
          State.serveErase (s.setKeys { s.keys with queue := rest }) k i := rfl
      rw [served, State.serveErase]
      refine ⟨fun hl => ?_, fun hl => ?_⟩
      · rw [if_pos (show (s.setKeys { s.keys with queue := rest }).keys.locked = true from hl)]; rfl
      · rw [if_neg (show ¬ (s.setKeys { s.keys with queue := rest }).keys.locked = true from Bool.eq_false_iff.1 hl)]
        rfl

end Sys2Proof.Machine
end
section
/-! SUPPORT. RULES_LOAD and CLASS_LOAD: the examination of an entry and of a record by its fields in order (R151, R162,
R163). -/
namespace Sys2Proof.Machine

/-! ### The examination of a rule entry (R151) -/

theorem senseOfCode_eq (b : Byte) :
    senseOfCode b = if b.toNat ≤ 1 then some (if b = 0 then .inside else .outside) else none := twoCode_eq b _ _

theorem modeOfCode_eq (b : Byte) :
    modeOfCode b = if b.toNat ≤ 1 then some (if b = 0 then .none else .required) else none := twoCode_eq b _ _

/-- Exactly the codes up to 6 name a quantity. -/
theorem quantityOfCode_eq_none_iff (b : Byte) : quantityOfCode b = none ↔ 6 < b.toNat := by
  revert b
  decide +kernel

theorem senseOfCode_eq_none_iff (b : Byte) : senseOfCode b = none ↔ 1 < b.toNat := by
  rw [senseOfCode_eq]
  split
  · simp; omega
  · simp; omega

theorem finOfCode_eq_none_iff {n : Nat} (b : Byte) : finOfCode n b = none ↔ n ≤ b.toNat := by
  unfold finOfCode
  split
  · simp; omega
  · simp; omega

theorem finOfCode_val {n : Nat} {b : Byte} {i : Fin n} (h : finOfCode n b = some i) : i.val = b.toNat := by
  unfold finOfCode at h
  split at h
  · cases h; rfl
  · cases h

/-- The examination fails at the field that R151 names. -/
theorem examineRule_failed (b : List Byte) (i : Nat) : (examineRule b i).failed = ruleFault b i := by
  have group := finOfCode_eq_none_iff (n := 4) (byteAt b (14 * i + 1))
  have quantity := quantityOfCode_eq_none_iff (byteAt b (14 * i + 2))
  have sense := senseOfCode_eq_none_iff (byteAt b (14 * i + 3))
  unfold examineRule ruleFault
  dsimp only
  split
  · rfl
  · split
    · rename_i hg; rw [if_pos (by have := group.1 hg; omega)]; rfl
    · rename_i hg
      rw [if_neg (by have := mt group.2 (by rw [hg]; exact Option.some_ne_none _); omega)]
      split
      · rename_i hq; rw [if_pos (quantity.1 hq)]; rfl
      · rename_i hq
        rw [if_neg (mt quantity.2 (by rw [hq]; exact Option.some_ne_none _))]
        split
        · rename_i hs; rw [if_pos (sense.1 hs)]; rfl
        · rename_i hs
          rw [if_neg (mt sense.2 (by rw [hs]; exact Option.some_ne_none _))]
          split <;> rfl

theorem examineRule_of_disabled {b : List Byte} {i : Nat} (h : byteAt b (14 * i) = 0) :
    examineRule b i = .rule Rule.reset := if_pos h

/-- An entry that passes is the rule of its fields. -/
theorem examineRule_of_enabled {b : List Byte} {i : Nat} (h : byteAt b (14 * i) ≠ 0) (hf : ruleFault b i = none) :
    (examineRule b i).taken.enabled = true ∧ (examineRule b i).taken.group.val = (byteAt b (14 * i + 1)).toNat ∧
      quantityOfCode (byteAt b (14 * i + 2)) = some (examineRule b i).taken.quantity ∧
      senseOfCode (byteAt b (14 * i + 3)) = some (examineRule b i).taken.sense ∧
      (examineRule b i).taken.classCode = word16At b (14 * i + 4) ∧
      (examineRule b i).taken.lo = word32At b (14 * i + 6) ∧ (examineRule b i).taken.hi = word32At b (14 * i + 10) := by
  rw [← examineRule_failed] at hf
  unfold examineRule at hf ⊢
  dsimp only at hf ⊢
  rw [if_neg h] at hf ⊢
  split at hf
  · cases hf
  · rename_i g hg
    split at hf
    · cases hf
    · rename_i q hq
      split at hf
      · cases hf
      · rename_i sense hs
        split at hf
        · cases hf
        · rename_i hb
          simp only [hq, hs, if_neg hb, RuleExam.taken]
          exact ⟨trivial, finOfCode_val hg, trivial, trivial, trivial, trivial, trivial⟩

/-- The first entry that fails, with all before it passing. -/
theorem firstBadRule_of_fault {b : List Byte} {i : Nat} {f : Byte} (hi : i < 8) (hf : ruleFault b i = some f)
    (hb : ∀ j, j < i → ruleFault b j = none) : firstBadRule b = some (i, f) := by
  have cut : List.range 8 = List.range i ++ i :: List.range' (i + 1) (7 - i) := by
    rw [List.range_eq_range', List.range_eq_range', show 8 = i + (7 - i + 1) by omega, ← List.range'_append_1,
      List.range'_succ, Nat.zero_add]
  have before : (List.range i).findSome? (fun i => (examineRule b i).failed.map (fun f => (i, f))) = none := by
    refine List.findSome?_eq_none_iff.2 fun j hj => ?_
    rw [examineRule_failed, hb j (List.mem_range.1 hj)]
    rfl
  rw [firstBadRule, cut, List.findSome?_append, before, List.findSome?_cons, examineRule_failed, hf]
  rfl

theorem firstBadRule_of_none {b : List Byte} (h : ∀ i, i < 8 → ruleFault b i = none) : firstBadRule b = none := by
  refine List.findSome?_eq_none_iff.2 fun i hi => ?_
  rw [examineRule_failed, h i (List.mem_range.1 hi)]
  rfl

/-- The rules of a payload in which no entry fails. -/
def rulesTaken (b : List Byte) : Vector Rule 8 := Vector.ofFn (fun i => (examineRule b i.val).taken)

/-- As many rules are enabled as entries. -/
theorem enabled_rulesTaken {b : List Byte} (h : ∀ i, i < 8 → ruleFault b i = none) :
    ((rulesTaken b).toList.filter (fun r => r.enabled)).length =
      ((List.range 8).filter (fun i => decide (byteAt b (14 * i) ≠ 0))).length := by
  have enabled : ∀ i, i < 8 → (examineRule b i).taken.enabled = decide (byteAt b (14 * i) ≠ 0) := fun i hi => by
    by_cases hz : byteAt b (14 * i) = 0
    · rw [examineRule_of_disabled hz, hz]; rfl
    · rw [(examineRule_of_enabled hz (h i hi)).1]; exact (decide_eq_true hz).symm
  have list : (rulesTaken b).toList = (List.range 8).map (fun i => (examineRule b i).taken) := by
    refine List.ext_getElem (by simp) fun i h1 h2 => ?_
    simp [rulesTaken]
  rw [list, List.filter_map, List.length_map]
  congr 1
  exact List.filter_congr fun i hi => enabled i (List.mem_range.1 hi)

theorem exec_rulesLoad_of_head {s : State} {k : SlotId} {rest : List WatchId} (h : s.taskAtHead k 0x0C rest) :
    exec .rulesLoad s = .next (State.rulesLoadTask k (s.taken k rest)) :=
  congrArg Host.Outcome.next (State.runTask_of_head h _)

/-- Settles O39: the first entry that fails, or the rules of all entries. -/
theorem rulesLoaded : Obligations.RulesLoaded := by
  intro s k rest h
  dsimp only
  rw [exec_rulesLoad_of_head h]
  unfold State.rulesLoadTask
  dsimp only
  rw [State.taken_payload]
  refine ⟨fun i f hi hf hb => ?_, fun hn => ?_⟩
  · rw [firstBadRule_of_fault hi hf hb]
    exact ⟨_, rfl, freeData_length _ _ _⟩
  · rw [firstBadRule_of_none hn]
    refine ⟨rulesTaken (s.slotPayload k), ?_, fun i => ?_⟩
    · dsimp only
      rw [← enabled_rulesTaken hn]
      rfl
    · have entry : (rulesTaken (s.slotPayload k))[i.val] = (examineRule (s.slotPayload k) i.val).taken := by
        simp only [rulesTaken, Vector.getElem_ofFn]
      rw [entry]
      exact ⟨fun hz => by rw [examineRule_of_disabled hz]; rfl, fun hz => examineRule_of_enabled hz (hn i.val i.isLt)⟩

/-! ### The examination of a class record (R162) -/

theorem modeOfCode_eq_none_iff (b : Byte) : modeOfCode b = none ↔ 1 < b.toNat := by
  rw [modeOfCode_eq]
  split
  · simp; omega
  · simp; omega

/-- The examination fails at the field that R162 names; a record that passes has the payload's key slot and mode. -/
theorem examineClass_cases (b : List Byte) :
    (∃ f, classFault b = some f ∧ examineClass b = .bad f) ∨
      ∃ slot mode, classFault b = none ∧ examineClass b = .given slot mode ∧ slot.val = (byteAt b 2).toNat ∧
        modeOfCode (byteAt b 3) = some mode := by
  unfold classFault examineClass
  by_cases hc : word16At b 0 = 0
  · exact .inl ⟨1, if_pos hc, if_pos hc⟩
  rw [if_neg hc, if_neg hc]
  by_cases hk : (byteAt b 2).toNat = 0 ∨ 15 < (byteAt b 2).toNat
  · refine .inl ⟨2, if_pos hk, ?_⟩
    split
    · rfl
    · rename_i slot hs
      have zero : slot = 0 := Fin.ext (by have := finOfCode_val hs; have := slot.isLt; simp only [Fin.val_zero]; omega)
      rw [if_pos zero]
  rw [if_neg hk, finOfCode_of_eq (i := (⟨(byteAt b 2).toNat, by omega⟩ : Fin 16)) rfl]
  have used : ¬ (⟨(byteAt b 2).toNat, by omega⟩ : Fin 16) = 0 := fun e => hk (.inl (congrArg Fin.val e))
  dsimp only
  rw [if_neg used]
  by_cases hm : 1 < (byteAt b 3).toNat
  · rw [if_pos hm, (modeOfCode_eq_none_iff _).2 hm]
    exact .inl ⟨3, rfl, rfl⟩
  · obtain ⟨mode, hmode⟩ := Option.ne_none_iff_exists'.1 (mt (modeOfCode_eq_none_iff _).1 hm)
    rw [if_neg hm, hmode]
    dsimp only
    by_cases hb : (word16At b 14).toNat < (word16At b 12).toNat
    · exact .inl ⟨4, if_pos hb, if_pos hb⟩
    · exact .inr ⟨⟨(byteAt b 2).toNat, by omega⟩, mode, if_neg hb, if_neg hb, rfl, rfl⟩

theorem examineClass_of_fault {b : List Byte} {f : Byte} (h : classFault b = some f) : examineClass b = .bad f := by
  rcases examineClass_cases b with ⟨g, hg, e⟩ | ⟨slot, mode, hn, -⟩
  · rw [e, Option.some.inj (hg.symm.trans h)]
  · rw [hn] at h; cases h

theorem examineClass_of_none {b : List Byte} (h : classFault b = none) :
    ∃ slot mode, examineClass b = .given slot mode ∧ slot.val = (byteAt b 2).toNat ∧
      modeOfCode (byteAt b 3) = some mode := by
  rcases examineClass_cases b with ⟨g, hg, -⟩ | ⟨slot, mode, -, e⟩
  · rw [hg] at h; cases h
  · exact ⟨slot, mode, e⟩

/-! ### The record's numbers and its place -/

theorem clampWord_toNat {n lo hi : Nat} (h : lo ≤ hi) (hh : hi < 2 ^ n) (v : BitVec n) :
    (clampWord n lo hi v).toNat = max lo (min hi v.toNat) := by
  rw [clampWord, clampNat_eq_max_min h, BitVec.toNat_ofNat]
  exact Nat.mod_eq_of_lt (by omega)

theorem classBeta_toInt (v : Word16) :
    (BitVec.ofInt 16 (clampInt (-2000) 2000 v.toInt)).toInt = max (-2000) (min 2000 v.toInt) := by
  have e := clampInt_eq_max_min (show (-2000 : Int) ≤ 2000 by omega) v.toInt
  rw [toInt_ofInt_of_offset (by omega) (by omega), e]

theorem State.classOf_isSome (s : State) (code : Word16) :
    (s.classOf code).isSome = s.classes.any (fun d => decide (d.code = code)) := by
  rw [State.classOf, Bool.eq_iff_iff, List.find?_isSome, List.any_eq_true]

theorem exec_classLoad_of_head {s : State} {k : SlotId} {rest : List WatchId} (h : s.taskAtHead k 0x0F rest) :
    exec .classLoad s = .next (State.classLoadTask k (s.taken k rest)) :=
  congrArg Host.Outcome.next (State.runTask_of_head h _)

/-- A field failed, of the slot's payload. -/
theorem State.classLoadTask_of_bad {s : State} {k : SlotId} {f : Byte} (h : examineClass (s.payload k) = .bad f) :
    State.classLoadTask k s =
      (s.complete k .badArgument (freeData s.free 0 (recordFields ++ [.flag, .bytes 1]) ++ [f])).draw := by
  rw [State.classLoadTask, h]

/-- A record that passes its examination (R163). -/
theorem State.classLoadTask_of_given {s : State} {k : SlotId} {slot : KeySlotId} {mode : SignatureMode}
    (h : examineClass (s.payload k) = .given slot mode) :
    State.classLoadTask k s =
      let c := clampClass (s.payload k) slot mode
      let known := s.classes.any (fun d => decide (d.code = c.code))
      if known = false ∧ 16 ≤ s.classes.length then
        (s.complete k .tableFull (freeData s.free 0 recordFields ++ [0] ++ bytes8 s.classes.length ++ [0xFF])).draw
      else
        (({ s with classes := placeClass s.classes c } : State).postBlock).complete k
          (if classClamped (s.payload k) c then .clamped else .ok)
          (c.bytes ++ [flagByte known] ++ bytes8 (placeClass s.classes c).length ++ [0xFF]) := by
  rw [State.classLoadTask, h]
  simp only [State.classOf_isSome]

/-- Settles O41: the field that fails, a full table, or the record brought into its ranges and placed. -/
theorem classLoaded : Obligations.ClassLoaded := by
  intro s k rest h
  dsimp only
  have payload := s.taken_payload k rest
  have known : (s.taken k rest).classes.any (fun d => decide (d.code = word16At (s.slotPayload k) 0)) = true ↔
      ∃ d ∈ s.classes, d.code = word16At (s.slotPayload k) 0 := by
    rw [List.any_eq_true]
    simp only [decide_eq_true_eq]
    exact Iff.rfl
  rw [exec_classLoad_of_head h]
  refine ⟨fun f hf => ?_, fun hn hk hl => ?_, fun hn hk => ?_⟩
  · rw [State.classLoadTask_of_bad (by rw [payload]; exact examineClass_of_fault hf)]
    exact ⟨_, freeData_length _ _ _, rfl⟩
  · obtain ⟨slot, mode, he, -, -⟩ := examineClass_of_none hn
    rw [State.classLoadTask_of_given (by rw [payload]; exact he), payload]
    dsimp only
    rw [if_pos ⟨Bool.eq_false_iff.2 (mt known.1 hk), hl⟩]
    exact ⟨_, freeData_length _ _ _, by rw [List.append_assoc, List.append_assoc]; rfl⟩
  · obtain ⟨slot, mode, he, hslot, hmode⟩ := examineClass_of_none hn
    have room : ¬ ((s.taken k rest).classes.any
        (fun d => decide (d.code = (clampClass (s.slotPayload k) slot mode).code)) = false ∧
        16 ≤ (s.taken k rest).classes.length) := fun e => by
      rcases hk with hk | hk
      · exact Bool.eq_false_iff.1 e.1 (known.2 hk)
      · exact absurd e.2 (Nat.not_le.2 hk)
    rw [State.classLoadTask_of_given (by rw [payload]; exact he), payload]
    dsimp only
    rw [if_neg room]
    refine ⟨clampClass (s.slotPayload k) slot mode,
      if classClamped (s.slotPayload k) (clampClass (s.slotPayload k) slot mode) then .clamped else .ok,
      by rw [List.append_assoc, List.append_assoc]; rfl, rfl, hslot, hmode,
      clampWord_toNat (by omega) (by omega) _, ?_, classBeta_toInt _, clampWord_toNat (by omega) (by omega) _,
      clampWord_toNat (by omega) (by omega) _, clampWord_toNat (by omega) (by omega) _, ?_, ?_,
      clampWord_toNat (by omega) (by omega) _, ?_, ?_⟩
    · exact (clampWord_toNat (by omega) (by omega) _).trans (Nat.zero_max _)
    · exact (clampWord_toNat (by omega) (by omega) _).trans (Nat.zero_max _)
    · refine (clampWord_toNat (by omega) (by omega) _).trans ?_
      have := (byteAt (s.slotPayload k) 18).isLt
      omega
    · split
      · exact .inr rfl
      · exact .inl rfl
    · have clamped : classClamped (s.slotPayload k) (clampClass (s.slotPayload k) slot mode) = false ↔ _ :=
        decide_eq_false_iff_not
      simp only [not_or, ne_eq, Classical.not_not] at clamped
      rw [← clamped]
      split
      · rename_i hc; rw [hc]; simp
      · rename_i hc; simpa using hc

end Sys2Proof.Machine
end
section
/-! SUPPORT. Owner words out of turn (R185), requests that fail in order and LINE_RESET (R41, R42, R49), and CANCEL by
where the task stands (R184). -/
namespace Sys2Proof.Machine

/-! ### Misuse of an owner word (R185) -/

theorem satInc_eq_self_iff (c : Word16) : satInc c = c ↔ c = 0xFFFF := by
  unfold satInc
  split
  · rename_i h; simp [h]
  · rename_i h
    refine ⟨fun e => ?_, fun e => absurd e h⟩
    bv_omega

theorem State.countMisuse_eq (s : State) :
    s.countMisuse = if s.misuse = 0xFFFF then s else ({ s with misuse := s.misuse + 1 } : State).postBlock := by
  unfold State.countMisuse
  by_cases h : s.misuse = 0xFFFF
  · rw [if_pos ((satInc_eq_self_iff _).2 h), if_pos h]
  · have raised : satInc s.misuse = s.misuse + 1 := if_neg h
    rw [if_neg (mt (satInc_eq_self_iff _).1 h), if_neg h, raised]

theorem exec_ownerWordMisuse_of_head {s : State} {k : SlotId} {rest : List WatchId}
    (h : s.entryAtHead (watchOfSlot k) rest) (hm : s.isMisuse k = true) :
    exec .ownerWordMisuse s = .next ((s.withWatch rest).misuseEntry k) := by
  change execOwnerWordMisuse s = _
  rw [execOwnerWordMisuse, State.takeOwner_of_head h]
  exact congrArg Host.Outcome.next (if_pos hm)

/-- Settles O30: by the slot's mark and the word. -/
theorem ownerWordMisuse : Obligations.OwnerWordMisuse := by
  intro s k rest h
  dsimp only
  have count := fun v : State => v.countMisuse_eq
  refine ⟨fun hm h0 h3 h4 => ?_, fun hm hw => ?_, fun hm h1 h4 => ?_⟩
  · have misuse : s.isMisuse k = true := decide_eq_true ⟨h4, fun _ => hm⟩
    have written : (s.withWatch rest).misuseEntry k = _ := (if_pos hm).trans (if_neg fun e => e.elim h0 h3)
    rw [exec_ownerWordMisuse_of_head h misuse, written, count]
    rfl
  · have misuse : s.isMisuse k = true :=
      decide_eq_true ⟨fun e => by rcases hw with hw | hw <;> rw [hw] at e <;> exact absurd e (by decide), fun _ => hm⟩
    have kept : (s.withWatch rest).misuseEntry k = _ := (if_pos hm).trans (if_pos hw)
    rw [exec_ownerWordMisuse_of_head h misuse, kept, count]
    rfl
  · have misuse : s.isMisuse k = true := decide_eq_true ⟨h4, fun e => absurd e h1⟩
    have other : (s.withWatch rest).misuseEntry k = _ := if_neg hm
    rw [exec_ownerWordMisuse_of_head h misuse, other]
    rfl

/-! ### Requests that fail in order (R41, R42, R49) -/

theorem State.taskLine_failure (s : State) (k : SlotId) (c : LineCommand) (e : LineError) (n : Nat) :
    s.taskLine k c (.failure e n) = (s.complete k (lineFailureStatus e)
      [Config.unstatedByte s.free 0, 0, 0, 0, BitVec.ofNat 8 n, e.code]).draw := rfl

theorem State.handLine_of_position {s : State} {r : LineRequest} {p : PosId} (h : r.requester = .position p)
    (o : LineResult) : s.handLine r o = (s.positionLine p o).choose p := by rw [State.handLine, h]

theorem State.handLine_of_task {s : State} {r : LineRequest} {k : SlotId} (h : r.requester = .task k)
    (o : LineResult) : s.handLine r o = s.taskLine k r.command o := by rw [State.handLine, h]

theorem State.conclude_of_live {s : State} {t : Transaction} (h : t.disposition = .live) (o : LineResult) :
    s.conclude t o = s.handLine t.request o := by rw [State.conclude, h]

theorem State.conclude_of_withdrawn {s : State} {t : Transaction} (h : t.disposition = .withdrawn) (o : LineResult) :
    s.conclude t o = s := by rw [State.conclude, h]

theorem State.conclude_of_cancelled {s : State} {t : Transaction} {k : SlotId} (h : t.disposition = .cancelled)
    (hk : t.request.requester = .task k) (o : LineResult) : s.conclude t o = s.completeFree k .cancelled := by
  rw [State.conclude, h]
  dsimp only
  rw [hk]

/-- Requests fail in order with the status of their error. -/
theorem failsInOrder_of_status {e : LineError} {st : TaskStatus} {code : Byte} (hs : lineFailureStatus e = st)
    (hc : e.code = code) : failsInOrder e st code := by
  refine ⟨fun v => ⟨rfl, fun r q => rfl, fun t q => rfl⟩, fun v r n => ?_, fun v x n => ?_⟩
  · refine ⟨fun p hp => State.handLine_of_position hp _, fun k hk => ⟨Config.unstatedByte v.free 0, ?_⟩⟩
    rw [State.handLine_of_task hk, State.taskLine_failure, hs, hc]
  · exact ⟨fun h => State.conclude_of_live h _, fun h => State.conclude_of_withdrawn h _,
      fun k h hk => State.conclude_of_cancelled h hk _⟩

/-! ### LINE_RESET (R49) -/

theorem exec_lineReset_of_head {s : State} {k : SlotId} {rest : List WatchId} (h : s.taskAtHead k 0x04 rest) :
    exec .lineReset s = .next (State.lineResetTask k (s.taken k rest)).finish :=
  congrArg Host.Outcome.next (State.runTask_of_head h _)

/-- Settles O34: by the payload's line and its state. -/
theorem lineResetTask : Obligations.LineResetTask := by
  refine ⟨failsInOrder_of_status rfl rfl, fun s k rest h => ?_⟩
  dsimp only
  rw [exec_lineReset_of_head h]
  unfold State.lineResetTask
  rw [State.taken_payload, lineOfCode_eq]
  generalize hl : (if byteAt (s.slotPayload k) 0 = 0 then LineId.A else .B) = l
  refine ⟨fun hb => by rw [if_neg (by omega)], fun hb hs => ?_, fun hb hs => ?_, fun hf hq => ?_⟩
  · rw [if_pos hb]
    dsimp only
    rw [if_pos (by rw [State.taken_line]; exact hs)]
    rfl
  · rw [if_pos hb]
    dsimp only
    rw [if_neg (by rw [State.taken_line]; exact hs), State.resetLine, State.taken_line]
    rfl
  · rw [hf, hq]
    rfl

/-! ### CANCEL (R184) -/

theorem exec_cancel_of_head {s : State} {k : SlotId} {rest : List WatchId} (h : s.entryAtHead (watchOfSlot k) rest)
    (ho : s.owner k = ownerCancel) : exec .cancel s = .next ((s.withWatch rest).cancelEntry k).finish := by
  change execCancel s = _
  rw [execCancel, State.takeOwner_of_head h]
  exact congrArg Host.Outcome.next (if_pos ho)

/-- The state in which the CANCEL of slot `k` has been handed. -/
def State.cancelMarked (s : State) (k : SlotId) : State := s.setSlot k { s.slot k with cancelHanded := true }

section Kinds

variable {s : State} {k : SlotId}

theorem State.handCancel_inspect (h : (s.slot k).kind = 0x01) : s.handCancel k = (s.cancelMarked k).cancelInspect k := by
  rw [State.handCancel, h]; rfl

theorem State.handCancel_tagRead (h : (s.slot k).kind = 0x02) : s.handCancel k = (s.cancelMarked k).cancelRead k := by
  rw [State.handCancel, h]; rfl

theorem State.handCancel_tagWrite (h : (s.slot k).kind = 0x03) : s.handCancel k = (s.cancelMarked k).cancelWrite k := by
  rw [State.handCancel, h]; rfl

theorem State.handCancel_lineReset (h : (s.slot k).kind = 0x04) : s.handCancel k = s.cancelMarked k := by
  rw [State.handCancel, h]; rfl

theorem State.handCancel_calibrate (h : (s.slot k).kind = 0x06) :
    s.handCancel k = (s.cancelMarked k).cancelCalibrate k := by
  rw [State.handCancel, h]; rfl

theorem State.handCancel_usageCommit (h : (s.slot k).kind = 0x07) :
    s.handCancel k = (s.cancelMarked k).cancelCommit k := by
  rw [State.handCancel, h]; rfl

theorem State.handCancel_key (h1 : 0x11 ≤ (s.slot k).kind.toNat) (h2 : (s.slot k).kind.toNat ≤ 0x14) :
    s.handCancel k = (s.cancelMarked k).cancelKeyTask k := by
  have other : ∀ c : Word16, c.toNat < 0x11 → (s.slot k).kind ≠ c := fun c hc e => by rw [e] at h1; omega
  unfold State.handCancel
  dsimp only
  rw [if_neg (other 0x01 (by decide)), if_neg (other 0x02 (by decide)), if_neg (other 0x03 (by decide)),
    if_neg (other 0x06 (by decide)), if_neg (other 0x07 (by decide)), if_pos ⟨h1, h2⟩]
  rfl

end Kinds

theorem LineCtl.queues_iff (x : LineCtl) (k : SlotId) : x.queues k = true ↔ ∃ r ∈ x.queue, r.requester = .task k := by
  simp [LineCtl.queues]

theorem State.queuedOnLine_iff (s : State) (k : SlotId) :
    s.queuedOnLine k = true ↔ ∃ l, ∃ r ∈ (s.line l).queue, r.requester = .task k := by
  rw [State.queuedOnLine, Bool.or_eq_true, LineCtl.queues_iff, LineCtl.queues_iff]
  exact ⟨fun h => h.elim (fun h => ⟨.A, h⟩) fun h => ⟨.B, h⟩, fun ⟨l, h⟩ => by cases l; exact .inl h; exact .inr h⟩

theorem State.any_positions_iff (s : State) (f : Position → Bool) :
    s.positions.toList.any f = true ↔ ∃ p, f (s.pos p) = true := by
  simp only [List.any_eq_true, Vector.mem_toList_iff, Vector.mem_iff_getElem]
  exact ⟨fun ⟨_, ⟨i, hi, rfl⟩, h⟩ => ⟨⟨i, hi⟩, h⟩, fun ⟨p, h⟩ => ⟨_, ⟨p.val, p.isLt, rfl⟩, h⟩⟩

/-- Changing every position leaves all else. -/
theorem State.mapPositions_eq (s : State) (f : Position → Position) :
    s.mapPositions f = { s with positions := (s.mapPositions f).positions } := by
  unfold State.mapPositions; rfl

theorem any_slot_iff (l : List MeasRequest) (k : SlotId) :
    l.any (fun r => decide (r.slot = some k)) = true ↔ ∃ r ∈ l, r.slot = some k := by simp

theorem any_key_slot_iff (l : List KeyTask) (k : SlotId) :
    l.any (fun t => decide (t.slot = k)) = true ↔ ∃ t ∈ l, t.slot = k := by simp

theorem State.advanceCalibration_of_none {s : State} (h : s.meas.waiting = []) : s.advanceCalibration = s := by
  have same : ({ s.meas with waiting := [] } : MeasUnit) = s.meas := by rw [← h]
  unfold State.advanceCalibration
  split
  · rfl
  · rw [h]
    show ({ s with meas := { s.meas with waiting := [] } } : State) = s
    rw [same]

/-- The oldest waiting task moves up where no CALIBRATE is queued or in flight and its channel is free (R85). -/
theorem State.advanceCalibration_of_free {s : State} {r : MeasRequest} {more : List MeasRequest}
    (hw : s.meas.waiting = r :: more) (hc : s.meas.calibrating = false) (hu : s.channelInUse r.channel = false) :
    s.advanceCalibration = { s with meas := { s.meas with waiting := more, queue := s.meas.queue ++ [r] } } := by
  rw [State.advanceCalibration, hc, hw, advanceWaiting, hu]
  rfl

theorem MeasUnit.calibrating_eq_false {u : MeasUnit} (hq : ∀ r ∈ u.queue, r.slot = none)
    (hf : ∀ f, u.inFlight = some f → f.request.slot = none) : u.calibrating = false := by
  refine Bool.eq_false_iff.2 fun e => ?_
  rcases (MeasUnit.calibrating_iff u).1 e with ⟨r, hr, h⟩ | ⟨f, he, h⟩
  · exact h (hq r hr)
  · exact h (hf f he)

theorem State.channelInUse_eq_false {s : State} {c : ChannelId}
    (h : ∀ p, (s.pos p).enabled = true → (s.pos p).applied.channel ≠ some c) : s.channelInUse c = false :=
  Bool.eq_false_iff.2 fun e => by
    obtain ⟨p, he, hc⟩ := (State.channelInUse_iff s c).1 e
    exact h p he hc

/-- Settles O31: by the slot's mark, then by the kind and where its task stands. -/
theorem cancelBySlotMark : Obligations.CancelBySlotMark := by
  intro s k rest h ho
  dsimp only
  rw [exec_cancel_of_head h ho]
  have entry : ∀ m, (s.slot k).mark = m → ((s.withWatch rest).slot k).mark = m := fun _ e => e
  refine ⟨fun hm => ?_, fun hm => ?_, fun hm hc => ?_, fun hm hc => ?_⟩
  · rw [State.cancelEntry, entry _ hm]; rfl
  · rw [State.cancelEntry, entry _ hm]
  · rw [State.cancelEntry, entry _ hm]
    exact congrArg (fun t : State => Host.Outcome.next t.finish) (if_pos hc)
  · have handed : (s.withWatch rest).cancelEntry k = (s.withWatch rest).handCancel k := by
      rw [State.cancelEntry, entry _ hm]
      exact if_neg (by rw [show ((s.withWatch rest).slot k).cancelHanded = false from hc]; exact Bool.false_ne_true)
    rw [handed]
    have queued : ((s.withWatch rest).cancelMarked k).queuedOnLine k = true ↔
        ∃ l, ∃ r ∈ (s.line l).queue, r.requester = .task k := by
      rw [← State.queuedOnLine_iff]; exact Iff.rfl
    have marked : ∀ f : Position → Bool, ((s.withWatch rest).cancelMarked k).positions.toList.any f = true ↔
        ∃ p, f (s.pos p) = true := s.any_positions_iff
    have none : ∀ {l : List MeasRequest}, (∀ r ∈ l, ¬ r.slot = some k) → ¬ ∃ r ∈ l, r.slot = some k :=
      fun h ⟨r, hr, e⟩ => h r hr e
    have inWaiting : ((s.withWatch rest).cancelMarked k).meas.waiting.any (fun r => decide (r.slot = some k)) = true ↔
        ∃ r ∈ s.meas.waiting, r.slot = some k := any_slot_iff _ k
    have inQueue : ((s.withWatch rest).cancelMarked k).meas.queue.any (fun r => decide (r.slot = some k)) = true ↔
        ∃ r ∈ s.meas.queue, r.slot = some k := any_slot_iff _ k
    have inKeys : ((s.withWatch rest).cancelMarked k).keys.queue.any (fun t => decide (t.slot = k)) = true ↔
        ∃ t ∈ s.keys.queue, t.slot = k := any_key_slot_iff _ k
    refine ⟨fun hk hq => ?_, fun hk hq => ?_, fun hk hq => ?_, fun hk => ?_, fun hk hi => ?_, fun hk hi => ?_,
      fun hk hi => ?_, fun hk hi => ?_, fun hk => ⟨fun hw => ?_, fun hw hq => ⟨?_, fun hn => ?_, fun r more hr ho hf hp => ?_⟩,
        fun hw hq => ?_⟩, fun h1 h2 hq => ?_, fun h1 h2 hq => ?_⟩
    · rcases hk with hk | hk
      · rw [State.handCancel_tagRead (s := s.withWatch rest) hk, State.cancelRead, if_pos (queued.2 hq)]; rfl
      · rw [State.handCancel_tagWrite (s := s.withWatch rest) hk, State.cancelWrite, if_pos (queued.2 hq)]; rfl
    · rw [State.handCancel_tagRead (s := s.withWatch rest) hk, State.cancelRead, if_neg (mt queued.1 hq)]
      exact ⟨_, rfl, rfl, fun l => by cases l <;> rfl⟩
    · rw [State.handCancel_tagWrite (s := s.withWatch rest) hk, State.cancelWrite, if_neg (mt queued.1 hq)]; rfl
    · rw [State.handCancel_lineReset (s := s.withWatch rest) hk]; rfl
    · rw [State.handCancel_inspect (s := s.withWatch rest) hk, State.cancelInspect,
        if_pos ((marked _).2 (by simpa using hi))]
      exact ⟨_, rfl, State.mapPositions_eq _ _, fun p => State.pos_mapPositions _ _ p⟩
    · rw [State.handCancel_inspect (s := s.withWatch rest) hk, State.cancelInspect,
        if_neg (mt (marked _).1 (by simpa using hi))]
      rfl
    · rw [State.handCancel_usageCommit (s := s.withWatch rest) hk, State.cancelCommit,
        if_pos ((marked _).2 (by simpa using hi))]
      exact ⟨_, rfl, State.mapPositions_eq _ _, fun p => State.pos_mapPositions _ _ p⟩
    · rw [State.handCancel_usageCommit (s := s.withWatch rest) hk, State.cancelCommit,
        if_neg (mt (marked _).1 (by simpa using hi))]
      rfl
    · rw [State.handCancel_calibrate (s := s.withWatch rest) hk, State.cancelCalibrate, if_pos (inWaiting.2 hw)]; rfl
    · rw [State.handCancel_calibrate (s := s.withWatch rest) hk, State.cancelCalibrate,
        if_neg (mt inWaiting.1 (none hw)), if_pos (inQueue.2 hq)]
      rfl
    · rw [State.handCancel_calibrate (s := s.withWatch rest) hk, State.cancelCalibrate,
        if_neg (mt inWaiting.1 (none hw)), if_pos (inQueue.2 hq), State.advanceCalibration_of_none]
      · rfl
      · exact hn
    · rw [State.handCancel_calibrate (s := s.withWatch rest) hk, State.cancelCalibrate,
        if_neg (mt inWaiting.1 (none hw)), if_pos (inQueue.2 hq),
        State.advanceCalibration_of_free (r := r) (more := more)]
      · rfl
      · exact hr
      · exact MeasUnit.calibrating_eq_false ho hf
      · exact State.channelInUse_eq_false hp
    · rw [State.handCancel_calibrate (s := s.withWatch rest) hk, State.cancelCalibrate,
        if_neg (mt inWaiting.1 (none hw)), if_neg (mt inQueue.1 (none hq))]
      rfl
    · rw [State.handCancel_key (s := s.withWatch rest) h1 h2, State.cancelKeyTask,
        if_neg (mt inKeys.1 (fun ⟨t, ht, e⟩ => hq t ht e))]
      rfl
    · rw [State.handCancel_key (s := s.withWatch rest) h1 h2, State.cancelKeyTask, if_pos (inKeys.2 hq)]
      rfl

end Sys2Proof.Machine
end
section
/-! SUPPORT. Supply, reset and start-up (R189): what the held part, the part that starts up and the end of the start-up
check show. -/
namespace Sys2Proof.Machine

/-! ### Held in reset -/

theorem KeyStore.halt_slots (k : KeyStore) (i : KeySlotId) :
    k.halt.slots[i.val] = if k.writing.map (fun w => w.target) = some i then .invalid else k.slots[i.val] := by
  unfold KeyStore.halt
  cases h : k.writing with
  | none => simp
  | some w => simp [Vector.getElem_set, Fin.ext_iff]

theorem State.holdReset_pos (s : State) (q : Power) (p : PosId) : (s.holdReset q).pos p = Position.reset :=
  Vector.getElem_replicate _

theorem State.holdReset_slot (s : State) (q : Power) (k : SlotId) : (s.holdReset q).slot k = TaskSlot.reset :=
  Vector.getElem_replicate _

theorem State.holdReset_line (s : State) (q : Power) (l : LineId) : (s.holdReset q).line l = LineCtl.released := by
  cases l <;> rfl

theorem Memory.read_nil (a : Nat) : Memory.read [] a = 0 := rfl

theorem exec_powerOn_of_off {s : State} (h : s.power = .off) : exec .powerOn s = .next (s.holdReset .held) :=
  congrArg Host.Outcome.next (if_pos h)

theorem exec_resetNAssert_of_on {s : State} (h : s.power ≠ .off) : exec .resetNAssert s = .next (s.holdReset .held) :=
  congrArg Host.Outcome.next (if_neg h)

theorem exec_powerLoss_of_on {s : State} (h : s.power ≠ .off) : exec .powerLoss s = .next (s.holdReset .off) :=
  congrArg Host.Outcome.next (if_neg h)

/-- Settles O18: each change of supply or reset leaves the held part, every item at its reset value. -/
theorem supplyHoldsReset : Obligations.SupplyHoldsReset := by
  intro s
  extract_lets held
  have halted : ∀ q, held q (s.holdReset q) := by
    intro q
    refine ⟨rfl, rfl, rfl, Memory.read_nil, fun g => ?_, rfl, rfl, rfl, rfl, decide_eq_true BitVec.zero_and,
      fun l => ?_, rfl, rfl, rfl,
      fun k => ?_, s.holdReset_pos q, rfl, rfl, rfl, rfl, rfl, rfl, rfl, s.keys.halt_slots⟩
    · exact BitVec.getLsbD_zero
    · rw [s.holdReset_line]
      exact ⟨rfl, rfl, rfl⟩
    · rw [s.holdReset_slot]
      rfl
  exact ⟨fun h => ⟨_, exec_powerOn_of_off h, halted .held⟩, fun h => congrArg Host.Outcome.next (if_neg h),
    fun h => ⟨_, exec_resetNAssert_of_on h, halted .held⟩, fun h => congrArg Host.Outcome.next (if_pos h),
    fun h => ⟨_, exec_powerLoss_of_on h, halted .off⟩, fun h => congrArg Host.Outcome.next (if_pos h)⟩

/-! ### Start-up -/

section
variable (s : State) (inhibitN : Bool) (cyc : BitVec 8)

theorem State.beginStartup_pos (p : PosId) : (s.beginStartup inhibitN cyc).pos p = Position.reset :=
  Vector.getElem_replicate _

theorem State.beginStartup_slot (k : SlotId) : (s.beginStartup inhibitN cyc).slot k = TaskSlot.reset :=
  Vector.getElem_replicate _

theorem State.beginStartup_line (l : LineId) : (s.beginStartup inhibitN cyc).line l = LineCtl.reset := by
  cases l <;> rfl

theorem State.beginStartup_memberBlocks (g : GroupId) : (s.beginStartup inhibitN cyc).memberBlocks g = false :=
  (State.memberBlocks_eq_false_iff _ g).2 fun p => by
    rw [State.beginStartup_pos]
    exact fun e => absurd e Bool.false_ne_true

theorem State.beginStartup_blockers (g : GroupId) :
    (s.beginStartup inhibitN cyc).permits.blockers[g.val] = if inhibitN then 0b00101 else 0b00111 := by
  rw [(State.permitsCurrent_iff.1 (s.beginStartup_current inhibitN cyc)).1, State.blockerSets_getElem, State.blockerSet,
    State.beginStartup_memberBlocks, show (s.beginStartup inhibitN cyc).device = .starting from rfl,
    show (s.beginStartup inhibitN cyc).inhibitN = inhibitN from rfl,
    show (s.beginStartup inhibitN cyc).permits.groupEnable = 0 from rfl,
    show (s.beginStartup inhibitN cyc).permits.holds = 0 from rfl]
  cases inhibitN <;> simp <;> decide

end

theorem exec_resetNRelease_of_held {s : State} (h : s.power = .held) (inhibitN : Bool) (cyc : BitVec 8) :
    exec (.resetNRelease inhibitN cyc) s = .next (s.beginStartup inhibitN cyc) :=
  congrArg Host.Outcome.next (if_pos h)

/-- Settles O19: start-up clears all but the key slots and takes the levels of the command. -/
theorem resetReleaseStartsUp : Obligations.ResetReleaseStartsUp := by
  intro s inhibitN cyc
  refine ⟨fun h => congrArg Host.Outcome.next (if_neg h), fun h => ⟨_, exec_resetNRelease_of_held h inhibitN cyc, ?_⟩⟩
  refine ⟨rfl, rfl, rfl, Memory.read_nil, rfl, fun k => ?_, fun l => ?_, rfl, s.beginStartup_pos inhibitN cyc, rfl,
    rfl, rfl, rfl, rfl, rfl, rfl, rfl, rfl, rfl, fun g => BitVec.getLsbD_zero, rfl, rfl,
    s.beginStartup_blockers inhibitN cyc, rfl, rfl, rfl, rfl, rfl, rfl, rfl, rfl⟩
  · rw [s.beginStartup_slot]
    rfl
  · rw [s.beginStartup_line]
    exact ⟨rfl, rfl, rfl, rfl, rfl, rfl⟩

/-! ### The start-up check -/

theorem KeySlot.checked_eq (k : KeySlot) (d : Bool) :
    k.checked d = if k.isValid = true ∧ d = true then .invalid else k := by
  cases k <;> cases d <;> rfl

theorem KeySlot.fails_eq (k : KeySlot) (d : Bool) : k.fails d = (k.isValid && d) := by
  cases k <;> rfl

theorem KeyStore.check_slots (k : KeyStore) (damaged : BitVec 16) (i : KeySlotId) : (k.check damaged).slots[i.val] =
    if (k.slots[i.val]).isValid = true ∧ damaged.getLsbD i.val = true then .invalid else k.slots[i.val] :=
  (Vector.getElem_ofFn _).trans (KeySlot.checked_eq _ _)

theorem KeyStore.check_damaged (k : KeyStore) (damaged : BitVec 16) : (k.check damaged).damaged =
    ((List.finRange 16).filter (fun i => (k.slots[i.val]).isValid && damaged.getLsbD i.val)).length := by
  simp only [← KeySlot.fails_eq]
  rfl

theorem KeyStore.setLock_locked (k : KeyStore) : k.setLock.locked = (k.setLock.slots[0]).isValid := rfl

theorem KeyStore.check_locked (k : KeyStore) (damaged : BitVec 16) :
    (k.check damaged).locked = ((k.check damaged).slots[0]).isValid := by
  unfold KeyStore.check
  exact KeyStore.setLock_locked _

/-- The state with the key store checked and the device RUNNING; FAULT is set when a slot was damaged. -/
def State.checked (s : State) (damaged : BitVec 16) : State :=
  { s with keys := s.keys.check damaged, device := .running, clearing := false,
           attention := if (s.keys.check damaged).damaged = 0 then s.attention else s.attention ||| attFault }

theorem State.endCheck_eq (s : State) (damaged : BitVec 16) :
    s.endCheck damaged = (s.checked damaged).evaluateAndPost.attend attStarted := by
  unfold State.endCheck State.checked
  dsimp only
  split <;> rfl

/-- The evaluation sets no reason but POSTED and PERMIT. -/
theorem State.evaluateAndPost_attention_of_other (s : State) {i : Nat} (h0 : attPosted.getLsbD i = false)
    (h1 : attPermit.getLsbD i = false) : s.evaluateAndPost.attention.getLsbD i = s.attention.getLsbD i := by
  show (s.settlePermits.attention ||| attPosted).getLsbD i = _
  rw [BitVec.getLsbD_or, h0, Bool.or_false, State.settlePermits]
  dsimp only
  split
  · rfl
  · rw [BitVec.getLsbD_or, h1, Bool.or_false]

theorem State.attend_getLsbD (s : State) (r : BitVec 4) (i : Nat) :
    (s.attend r).attention.getLsbD i = (s.attention.getLsbD i || r.getLsbD i) := BitVec.getLsbD_or

theorem State.checked_fault (s : State) (damaged : BitVec 16) : (s.checked damaged).attention.getLsbD 2 = true ↔
    s.attention.getLsbD 2 = true ∨ (s.keys.check damaged).damaged ≠ 0 := by
  unfold State.checked
  dsimp only
  split
  case isTrue h => simp [h]
  case isFalse h => simp [h, show attFault.getLsbD 2 = true from rfl]

/-- Settles O20: the end of the check is the checked key store, then an evaluation with its posting, then STARTED. -/
theorem startupCheckEnds : Obligations.StartupCheckEnds := by
  intro s damaged
  refine ⟨fun h => congrArg Host.Outcome.next (if_neg h),
    fun hp hd => ⟨s.endCheck damaged, congrArg Host.Outcome.next (if_pos ⟨hp, hd⟩), ?_⟩⟩
  have current : (s.endCheck damaged).permitsCurrent = true := s.endCheck_current damaged
  rw [s.endCheck_eq] at current ⊢
  refine ⟨rfl, s.keys.check_slots damaged, s.keys.check_damaged damaged, s.keys.check_locked damaged, rfl, rfl, rfl,
    current, rfl, rfl,
    ?_, ?_, ?_, fun a ha => State.evaluateAndPost_host (s.checked damaged) ha⟩
  · rw [State.attend_getLsbD, State.evaluateAndPost_posted, Bool.true_or]
  · rw [State.attend_getLsbD, show attStarted.getLsbD 3 = true from rfl, Bool.or_true]
  · rw [State.attend_getLsbD, State.evaluateAndPost_attention_of_other _ rfl rfl,
      show attStarted.getLsbD 2 = false from rfl, Bool.or_false, State.checked_fault]
    rfl

end Sys2Proof.Machine
end
section
/-! SUPPORT. STOP and RESUME (R11, R158, R188), and the free order in which sequencers choose (R8, R46). -/
namespace Sys2Proof.Machine

/-! ### The free order -/

theorem insertFree_perm (n : Nat) (p : PosId) (l : List PosId) : (insertFree n p l).Perm (p :: l) := by
  induction l with
  | nil => exact List.Perm.refl _
  | cons q qs ih =>
    rw [insertFree]
    split
    · exact List.Perm.refl _
    · exact (ih.cons q).trans (List.Perm.swap p q qs)

/-- The free order is an order of the same positions. -/
theorem inFreeOrder_perm (n : Nat) (l : List PosId) : (inFreeOrder n l).Perm l := by
  induction l with
  | nil => exact List.Perm.refl _
  | cons p ps ih => exact (insertFree_perm n p _).trans (ih.cons p)

theorem inFreeOrder_nodup (n : Nat) {l : List PosId} (h : l.Nodup) : (inFreeOrder n l).Nodup :=
  (inFreeOrder_perm n l).nodup_iff.2 h

theorem mem_inFreeOrder {n : Nat} {l : List PosId} {p : PosId} : p ∈ inFreeOrder n l ↔ p ∈ l :=
  (inFreeOrder_perm n l).mem_iff

theorem allPositions_nodup : allPositions.Nodup := List.nodup_finRange 24

theorem mem_allPositions (p : PosId) : p ∈ allPositions := List.mem_finRange p

/-- The order in which those of `ps` that have something to choose choose. -/
def State.choosers (s : State) (ps : List PosId) : List PosId :=
  inFreeOrder s.free (ps.filter (fun p => (s.pos p).wantsChoice))

theorem State.chooseAmong_eq (s : State) (ps : List PosId) :
    s.chooseAmong ps = ((s.choosers ps).foldl (fun t p => t.choose p) s).draw := rfl

theorem State.choosers_nodup (s : State) {ps : List PosId} (h : ps.Nodup) : (s.choosers ps).Nodup :=
  inFreeOrder_nodup _ (h.filter _)

theorem Position.wantsChoice_iff (x : Position) : x.wantsChoice = true ↔ x.seq = .idle ∧
    (x.editionWaiting = true ∨ x.owed = true ∨ (x.boundUid ≠ none ∧ x.unconfirmed = false ∧
      (x.commitWaiting ≠ [] ∨ x.applied.threshold.toNat ≤ x.pendingUse.toNat))) := by
  rw [Position.wantsChoice, Bool.and_eq_true, Bool.or_eq_true, Bool.or_eq_true, Position.commitDue_iff, decide_eq_true_eq,
    or_assoc]

theorem State.mem_choosers {s : State} {ps : List PosId} {p : PosId} :
    p ∈ s.choosers ps ↔ p ∈ ps ∧ (s.pos p).wantsChoice = true := by
  rw [State.choosers, mem_inFreeOrder, List.mem_filter]

/-! ### STOP -/

/-- The device STOPPING, the timers held, every permit OFF, posted. -/
def State.stopping (s : State) : State :=
  ({ s.mapPositions (fun x => { x with timer := x.timer.hold }) with device := .stopping } : State).evaluateAndPost

theorem State.stop_eq {s : State} (h : s.device = .running) : s.stop = s.stopping.stopIfIdle := if_pos h

theorem State.stopping_eq (s : State) : s.stopping = { s with
    device := .stopping, positions := s.stopping.positions, permits := s.stopping.permits,
    attention := s.stopping.attention, mem := s.stopping.mem, blockEdition := s.stopping.blockEdition,
    blockDirty := false } := by
  unfold State.stopping
  rw [State.evaluateAndPost_eq, State.mapPositions_eq]

theorem State.stopping_pos (s : State) (p : PosId) : s.stopping.pos p = { s.pos p with timer := (s.pos p).timer.hold } :=
  s.pos_mapPositions _ p

theorem State.stopping_atRest (s : State) : s.stopping.atRest ↔ s.atRest := by
  have lines : ∀ l, s.stopping.line l = s.line l := fun l => by rw [s.stopping_eq]; cases l <;> rfl
  have meas : s.stopping.meas = s.meas := by rw [s.stopping_eq]
  simp only [State.atRest, State.stopping_pos, lines, meas]

theorem State.stop_eq_device {s : State} (h : s.device = .running) : s.stop = { s with
    device := s.stop.device, positions := s.stop.positions, permits := s.stop.permits, attention := s.stop.attention,
    mem := s.stop.mem, blockEdition := s.stop.blockEdition, blockDirty := false } := by
  rw [State.stop_eq h]
  by_cases hr : s.atRest
  · rw [State.stopIfIdle_of_rest rfl (s.stopping_atRest.2 hr), s.stopping_eq]; rfl
  · rw [State.stopIfIdle_of_not_rest (fun e => hr (s.stopping_atRest.1 e.2))]; exact s.stopping_eq

/-- With current permits, a part that does not run drives every output low (R158). -/
theorem State.permitOutput_of_not_running {s : State} (h : s.permitsCurrent = true) (hd : s.device ≠ .running)
    (g : GroupId) : s.permitOutput g = false := by
  rw [State.permitOutput, (State.permitsCurrent_iff.1 h).2, permitWordOf_of_not_running hd]
  exact BitVec.getLsbD_zero

theorem State.stop_not_running {s : State} (h : s.device = .running) : s.stop.device ≠ .running := by
  rw [State.stop_eq h]
  rcases s.stopping.stopIfIdle_device with e | ⟨-, e⟩
  · rw [e]; exact DeviceState.noConfusion
  · rw [e]; exact DeviceState.noConfusion

/-! ### RESUME -/

/-- The device RUNNING, the timers restarted, the permits evaluated and the block posted. -/
def State.resumed (s : State) : State :=
  ({ s.mapPositions Position.restartTimer with device := .running } : State).evaluateAndPost

theorem State.resume_eq {s : State} (h : s.device = .stopping ∨ s.device = .stopped) :
    s.resume = (((s.resumed.choosers allPositions).foldl (fun t p => t.choose p) s.resumed).draw).finish := if_pos h

theorem State.resumed_eq (s : State) : s.resumed = { s with
    device := .running, positions := s.resumed.positions, permits := s.resumed.permits,
    attention := s.resumed.attention, mem := s.resumed.mem, blockEdition := s.blockEdition + 2,
    blockDirty := false } := by
  unfold State.resumed
  rw [State.evaluateAndPost_eq, State.mapPositions_eq]

theorem State.frame_resumed (s : State) : s.resumed.frame = { s.frame with device := .running } := by
  rw [State.resumed, State.frame_evaluateAndPost, State.frame_device, State.frame_mapPositions]

theorem State.resumed_pos (s : State) (p : PosId) : s.resumed.pos p =
    if (s.pos p).enabled then { s.pos p with timer := .running (s.pos p).applied.interval } else s.pos p :=
  s.pos_mapPositions _ p

/-- A restarted timer changes nothing of what the sequencer has to choose. -/
theorem State.resumed_wantsChoice (s : State) (p : PosId) :
    (s.resumed.pos p).wantsChoice = (s.pos p).wantsChoice := by
  rw [s.resumed_pos]
  split <;> rfl

/-- Settles O21: STOP by whether all is at rest; RESUME as an evaluation with its posting, then the choices. -/
theorem stopAndResume : Obligations.StopAndResume := by
  intro s hp
  refine ⟨fun h => congrArg Host.Outcome.next ((if_pos hp).trans (if_neg h)), fun h => ?_,
    fun h1 h2 => congrArg Host.Outcome.next ((if_pos hp).trans (if_neg (not_or.2 ⟨h1, h2⟩))), fun h => ?_⟩
  · have current : s.stopping.stopIfIdle.permitsCurrent = true :=
      State.stopIfIdle_current (State.evaluateAndPost_current _)
    refine ⟨s.stop, congrArg Host.Outcome.next (if_pos hp), fun hr => ?_, fun hr => ?_, State.stop_eq_device h,
      fun p => ?_, fun g => ?_, ?_, ?_, ?_, ?_, fun a ha => ?_⟩
    · rw [State.stop_eq h, State.stopIfIdle_of_rest rfl (s.stopping_atRest.2 hr)]; rfl
    · rw [State.stop_eq h, State.stopIfIdle_of_not_rest (fun e => hr (s.stopping_atRest.1 e.2))]; rfl
    · rw [State.stop_eq h, State.pos_congr s.stopping.stopIfIdle_positions, s.stopping_pos]
      cases (s.pos p).timer <;> rfl
    · exact State.permitOutput_of_not_running (State.stop_eq h ▸ current) (State.stop_not_running h) g
    · exact State.stop_eq h ▸ current
    · exact congrArg Frame.holds s.frame_stop
    · exact congrArg Frame.groupEnable s.frame_stop
    · rw [State.stop_eq h]; exact s.stopping.stopIfIdle_attention (State.evaluateAndPost_posted _)
    · exact read_of_hostBytes (congrArg Frame.host s.frame_stop) ha
  · refine ⟨s.resumed, s.resumed.choosers allPositions,
      congrArg Host.Outcome.next ((if_pos hp).trans (State.resume_eq h)), s.resumed_eq, s.resumed_pos,
      State.evaluateAndPost_current _, ?_, ?_, State.evaluateAndPost_posted _, fun a ha => ?_,
      s.resumed.choosers_nodup allPositions_nodup, fun p => ?_⟩
    · exact congrArg Frame.holds s.frame_resumed
    · exact congrArg Frame.groupEnable s.frame_resumed
    · exact read_of_hostBytes (congrArg Frame.host s.frame_resumed) ha
    · rw [State.mem_choosers, s.resumed_wantsChoice, Position.wantsChoice_iff]
      exact and_iff_right (mem_allPositions p)

end Sys2Proof.Machine
end
section
/-! SUPPORT. What leaves a task slot as it is, and RESTART by its parts (R190). -/
namespace Sys2Proof.Machine

/-! ### A slot as it was -/

/-- Slot `k`, its owner word and its result are in `t` as in `s`. -/
structure State.KeepsSlot (k : SlotId) (s t : State) : Prop where
  slot : t.slot k = s.slot k
  read : ∀ a, slotAddr k ≤ a → a < slotAddr k + 0x100 → t.mem.read a = s.mem.read a

namespace State.KeepsSlot
variable {k : SlotId} {s t u : State}

theorem refl (s : State) : State.KeepsSlot k s s := ⟨rfl, fun _ _ _ => rfl⟩

theorem trans (h : State.KeepsSlot k s t) (h' : State.KeepsSlot k t u) : State.KeepsSlot k s u :=
  ⟨h'.slot.trans h.slot, fun a h1 h2 => (h'.read a h1 h2).trans (h.read a h1 h2)⟩

theorem of_eq (s t : State) (hs : t.slots = s.slots) (hm : t.mem = s.mem) : State.KeepsSlot k s t :=
  ⟨by simp only [State.slot, hs], fun a _ _ => by rw [hm]⟩

theorem owner (h : State.KeepsSlot k s t) : t.owner k = s.owner k :=
  Memory.word_congr (h.read _ (by omega) (by omega)) (h.read _ (by omega) (by omega))

theorem result (h : State.KeepsSlot k s t) :
    t.mem.word (slotAddr k + 0x82) = s.mem.word (slotAddr k + 0x82) :=
  Memory.word_congr (h.read _ (by omega) (by omega)) (h.read _ (by omega) (by omega))

theorem foldl {α : Type} {f : State → α → State} (h : ∀ s a, State.KeepsSlot k s (f s a)) (l : List α) (s : State) :
    State.KeepsSlot k s (l.foldl f s) := by
  induction l generalizing s with
  | nil => exact refl s
  | cons a l ih => exact (h s a).trans (ih _)

end State.KeepsSlot

theorem slotAddr_bounds (k : SlotId) : 0x1000 ≤ slotAddr k ∧ slotAddr k + 0x100 ≤ 0x1800 := by
  obtain ⟨k, hk⟩ := k
  simp only [slotAddr]
  omega

theorem slotAddr_apart {j k : SlotId} (h : j ≠ k) :
    slotAddr j + 0x100 ≤ slotAddr k ∨ slotAddr k + 0x100 ≤ slotAddr j := by
  have hv : j.val ≠ k.val := fun e => h (Fin.ext e)
  simp only [slotAddr]
  omega

theorem State.postBlock_keepsSlot (s : State) (k : SlotId) : State.KeepsSlot k s s.postBlock := by
  have hk := slotAddr_bounds k
  exact ⟨rfl, fun a h1 h2 => postBlock_read s (by simp only [Memory.size]; omega) (by omega) (by omega)⟩

theorem State.postHalf_keepsSlot (s : State) (p : PosId) (k : SlotId) : State.KeepsSlot k s (s.postHalf p) := by
  have hk := slotAddr_bounds k
  have hp := p.isLt
  exact ⟨rfl, fun a h1 h2 => postHalf_read s p (by simp only [Memory.size]; omega)
    (by simp only [stateHalfAddr, positionAddr]; omega) (by simp only [extensionAddr]; omega)⟩

theorem State.evaluateAndPost_keepsSlot (s : State) (k : SlotId) : State.KeepsSlot k s s.evaluateAndPost :=
  (State.KeepsSlot.of_eq s s.settlePermits rfl rfl).trans (State.postBlock_keepsSlot s.settlePermits k)

theorem State.complete_keepsSlot (s : State) {j k : SlotId} (h : k ≠ j) (st : TaskStatus) (d : List Byte) :
    State.KeepsSlot k s (s.complete j st d) := by
  have hk := slotAddr_bounds k
  have hjk := slotAddr_apart h
  exact ⟨State.complete_slot_ne s st d h, fun a h1 h2 => complete_read s j st d (by simp only [Memory.size]; omega)
    (by omega) (by omega)⟩

theorem State.completeFree_keepsSlot (s : State) {j k : SlotId} (h : k ≠ j) (st : TaskStatus) :
    State.KeepsSlot k s (s.completeFree j st) :=
  (State.complete_keepsSlot s h st _).trans (State.KeepsSlot.of_eq _ _ rfl rfl)

/-! ### A slot whose task has ended -/

/-- The task of slot `k` has ended: the slot is HELD no longer, and the word that the device left says so. -/
structure State.Ended (k : SlotId) (st : TaskStatus) (s : State) : Prop where
  mark : (s.slot k).mark ≠ .held
  owner : s.owner k = 0x0000 ∨ s.owner k = 0x5A03
  status : s.mem.word (slotAddr k + 0x82) = st.code

theorem State.Ended.keep {k : SlotId} {st : TaskStatus} {s t : State} (h : State.Ended k st s)
    (hk : State.KeepsSlot k s t) : State.Ended k st t :=
  ⟨hk.slot ▸ h.mark, hk.owner ▸ h.owner, hk.result.trans h.status⟩

theorem State.complete_ended (s : State) (k : SlotId) (st : TaskStatus) (d : List Byte) :
    State.Ended k st (s.complete k st d) := by
  refine ⟨?_, ?_, State.complete_status s k st d⟩
  · rw [State.complete_slot]
    dsimp only
    split <;> exact SlotMark.noConfusion
  · rw [State.complete_owner]
    split
    case isTrue h => exact h
    case isFalse => exact Or.inr rfl

theorem State.completeFree_ended (s : State) (k : SlotId) (st : TaskStatus) : State.Ended k st (s.completeFree k st) :=
  (State.complete_ended s k st _).keep (State.KeepsSlot.of_eq _ _ rfl rfl)

theorem State.completeAllFree_keepsSlot {k : SlotId} {ks : List SlotId} (h : k ∉ ks) (s : State) (st : TaskStatus) :
    State.KeepsSlot k s (s.completeAllFree ks st) := by
  induction ks generalizing s with
  | nil => exact State.KeepsSlot.refl s
  | cons j ks ih =>
    rw [List.mem_cons, not_or] at h
    exact (State.completeFree_keepsSlot s h.1 st).trans (ih h.2 _)

theorem State.completeAllFree_ended {k : SlotId} {ks : List SlotId} (h : k ∈ ks) (s : State) (st : TaskStatus) :
    State.Ended k st (s.completeAllFree ks st) := by
  induction ks generalizing s with
  | nil => exact absurd h List.not_mem_nil
  | cons j ks ih =>
    by_cases hk : k ∈ ks
    · exact ih hk _
    · obtain rfl : k = j := (List.mem_cons.1 h).resolve_right hk
      exact (State.completeFree_ended s k st).keep (State.completeAllFree_keepsSlot hk _ st)

/-! ### The postings of several halves -/

theorem foldl_postHalf_eq (l : List PosId) (s : State) : l.foldl (fun t p => t.postHalf p) s = { s with
    positions := (l.foldl (fun t p => t.postHalf p) s).positions, mem := (l.foldl (fun t p => t.postHalf p) s).mem,
    attention := (l.foldl (fun t p => t.postHalf p) s).attention } := by
  induction l generalizing s with
  | nil => rfl
  | cons p l ih => rw [List.foldl_cons, ih (s.postHalf p)]; rfl

theorem pos_foldl_postHalf_of_not_mem {l : List PosId} {p : PosId} (h : p ∉ l) (s : State) :
    (l.foldl (fun t p => t.postHalf p) s).pos p = s.pos p := by
  induction l generalizing s with
  | nil => rfl
  | cons q l ih =>
    rw [List.mem_cons, not_or] at h
    rw [List.foldl_cons, ih h.2, State.pos_postHalf_ne s (Ne.symm h.1)]

theorem pos_foldl_postHalf_of_mem {l : List PosId} (hl : l.Nodup) {p : PosId} (h : p ∈ l) (s : State) :
    (l.foldl (fun t p => t.postHalf p) s).pos p =
      { s.pos p with edition := (s.pos p).edition + 2, pulseDirty := false } := by
  induction l generalizing s with
  | nil => exact absurd h List.not_mem_nil
  | cons q l ih =>
    obtain ⟨hq, hl⟩ := List.nodup_cons.1 hl
    rw [List.foldl_cons]
    by_cases e : p = q
    · subst e
      rw [pos_foldl_postHalf_of_not_mem hq, State.pos_postHalf]
    · rw [ih hl ((List.mem_cons.1 h).resolve_left e), State.pos_postHalf_ne s (Ne.symm e)]

/-! ### ATTENTION through RESTART -/

/-- Reason `i` of ATTENTION is neither POSTED nor PERMIT. -/
def otherReason (i : Nat) : Prop := attPosted.getLsbD i = false ∧ attPermit.getLsbD i = false

theorem otherReason_fault : otherReason 2 := ⟨rfl, rfl⟩

theorem getLsbD_or_of_other {n : Nat} (a : BitVec n) {b : BitVec n} {i : Nat} (h : b.getLsbD i = false) :
    (a ||| b).getLsbD i = a.getLsbD i := by
  rw [BitVec.getLsbD_or, h, Bool.or_false]

theorem State.completeAllFree_attention {i : Nat} (h : otherReason i) (ks : List SlotId) (s : State) (st : TaskStatus) :
    (s.completeAllFree ks st).attention.getLsbD i = s.attention.getLsbD i := by
  induction ks generalizing s with
  | nil => rfl
  | cons k ks ih => exact (ih _).trans (getLsbD_or_of_other s.attention h.1)

theorem foldl_postHalf_attention {i : Nat} (h : otherReason i) (l : List PosId) (s : State) :
    (l.foldl (fun t p => t.postHalf p) s).attention.getLsbD i = s.attention.getLsbD i := by
  induction l generalizing s with
  | nil => rfl
  | cons p l ih => exact (ih _).trans (getLsbD_or_of_other s.attention h.1)

theorem State.settlePermits_attention_of_other {i : Nat} (h : otherReason i) (s : State) :
    s.settlePermits.attention.getLsbD i = s.attention.getLsbD i := by
  rw [State.settlePermits]
  dsimp only
  split
  · rfl
  · exact getLsbD_or_of_other _ h.2

/-! ### RESTART -/

theorem State.completeAllFree_eq (ks : List SlotId) (s : State) (st : TaskStatus) : s.completeAllFree ks st = { s with
    slots := (s.completeAllFree ks st).slots, mem := (s.completeAllFree ks st).mem,
    attention := (s.completeAllFree ks st).attention, free := (s.completeAllFree ks st).free } := by
  induction ks generalizing s with
  | nil => rfl
  | cons k ks ih =>
    rw [show s.completeAllFree (k :: ks) st = (s.completeFree k st).completeAllFree ks st from rfl, ih]
    rfl

theorem State.restartBlocks_pos (s : State) (p : PosId) : s.restartBlocks.pos p = (s.pos p).restart :=
  s.pos_mapPositions _ p

section
variable (s : State)

theorem State.restartHalted_keepsSlot (k : SlotId) : State.KeepsSlot k s s.restartHalted :=
  (State.KeepsSlot.of_eq s { s with device := .starting, watch := [] } rfl rfl).trans
    (State.evaluateAndPost_keepsSlot _ k)

/-- The held tasks have ended with RESTARTED. -/
def State.restartEnded : State := s.restartHalted.completeAllFree s.heldSlots .restarted

theorem State.restartPosted_keepsSlot (k : SlotId) :
    State.KeepsSlot k s.restartPosted (s.restartFilled.evaluateAndPost.attend attStarted) :=
  ((State.KeepsSlot.of_eq s.restartPosted s.restartFilled rfl rfl).trans (State.evaluateAndPost_keepsSlot _ k)).trans
    (State.KeepsSlot.of_eq _ _ rfl rfl)

theorem State.restartEnded_keepsSlot_restart (h : s.device ≠ .starting) (k : SlotId) :
    State.KeepsSlot k s.restartEnded s.restart := by
  rw [State.restart_eq h]
  have cleared : State.KeepsSlot k s.restartEnded s.restartCleared :=
    State.KeepsSlot.of_eq _ _ (by simp [State.restartCleared, State.restartBlocks, State.restartEnded])
      (by simp [State.restartCleared, State.restartBlocks, State.restartEnded])
  have posted : State.KeepsSlot k s.restartCleared s.restartPosted :=
    (State.KeepsSlot.foldl (fun t p => t.postHalf_keepsSlot p k) _ _).trans (State.postBlock_keepsSlot _ k)
  exact (cleared.trans posted).trans (s.restartPosted_keepsSlot k)

theorem State.mem_heldSlots (k : SlotId) : k ∈ s.heldSlots ↔ (s.slot k).mark = .held := by
  simp [State.heldSlots, allSlots]

theorem State.restart_keepsSlot (h : s.device ≠ .starting) {k : SlotId} (hk : (s.slot k).mark ≠ .held) :
    State.KeepsSlot k s s.restart :=
  ((s.restartHalted_keepsSlot k).trans (State.completeAllFree_keepsSlot (mt (s.mem_heldSlots k).1 hk) _ _)).trans
    (s.restartEnded_keepsSlot_restart h k)

theorem State.restart_ended (h : s.device ≠ .starting) {k : SlotId} (hk : (s.slot k).mark = .held) :
    State.Ended k .restarted s.restart :=
  (State.completeAllFree_ended ((s.mem_heldSlots k).2 hk) _ _).keep (s.restartEnded_keepsSlot_restart h k)

theorem State.restart_owner (h : s.device ≠ .starting) (k : SlotId) : s.restart.owner k = s.restartPosted.owner k := by
  rw [State.restart_eq h]
  exact (s.restartPosted_keepsSlot k).owner

theorem State.restartEnded_pos (p : PosId) : s.restartEnded.pos p = s.pos p :=
  State.pos_congr (congrArg State.positions (State.completeAllFree_eq ..)) p

theorem State.restartCleared_pos (p : PosId) : s.restartCleared.pos p = (s.pos p).restart := by
  rw [State.restartCleared, State.pos_congr (State.settlePermits_positions _), State.restartBlocks_pos]
  exact congrArg _ (s.restartEnded_pos p)

theorem State.restart_positions (h : s.device ≠ .starting) :
    s.restart.positions = (allPositions.foldl (fun t p => t.postHalf p) s.restartCleared).positions := by
  rw [State.restart_eq h]
  simp only [State.attend_positions, State.evaluateAndPost, State.postBlock_positions, State.settlePermits_positions,
    State.restartFilled, State.restartPosted]

theorem State.restart_pos (h : s.device ≠ .starting) (p : PosId) :
    s.restart.pos p = { Position.reset with edition := (s.pos p).edition + 2 } := by
  rw [State.pos_congr (s.restart_positions h), pos_foldl_postHalf_of_mem allPositions_nodup (mem_allPositions p),
    State.restartCleared_pos]
  rfl

/-- The blocks that no posting and no end of a task moves. -/
def State.worked : LineCtl × LineCtl × MeasUnit × List IdentityRecord × Word16 × List Word64 × Word16 :=
  (s.lineA, s.lineB, s.meas, s.identity, s.evictions, s.retired, s.retiredDropped)

theorem State.worked_postBlock : s.postBlock.worked = s.worked := rfl

theorem State.worked_attend (r : BitVec 4) : (s.attend r).worked = s.worked := rfl

theorem State.worked_evaluateAndPost : s.evaluateAndPost.worked = s.worked := rfl

theorem worked_foldl_postHalf (l : List PosId) : (l.foldl (fun t p => t.postHalf p) s).worked = s.worked := by
  induction l generalizing s with
  | nil => rfl
  | cons p l ih => exact ih (s.postHalf p)

theorem State.restartBlocks_attention : s.restartBlocks.attention = s.attention := by simp [State.restartBlocks]

theorem State.restart_worked (h : s.device ≠ .starting) : s.restart.worked =
    (s.lineA.restart, s.lineB.restart, s.meas.restart, [], 0, s.retired, s.retiredDropped) := by
  have ended : s.restartEnded.worked = s.worked :=
    (congrArg State.worked (State.completeAllFree_eq s.heldSlots s.restartHalted .restarted)).trans
      (State.worked_evaluateAndPost _)
  have cleared : s.restartCleared.worked = (s.restartEnded.lineA.restart, s.restartEnded.lineB.restart,
      s.restartEnded.meas.restart, [], 0, s.restartEnded.retired, s.restartEnded.retiredDropped) := by
    simp [State.worked, State.restartCleared, State.restartBlocks, State.restartEnded]
  have posted : s.restart.worked = s.restartCleared.worked := by
    rw [State.restart_eq h, State.worked_attend, State.worked_evaluateAndPost,
      show s.restartFilled.worked = s.restartPosted.worked from rfl, State.restartPosted, State.worked_postBlock,
      worked_foldl_postHalf]
  simp only [State.worked, Prod.mk.injEq] at ended
  obtain ⟨hA, hB, hm, -, -, hr, hd⟩ := ended
  rw [posted, cleared, hA, hB, hm, hr, hd]

theorem State.restart_fault (h : s.device ≠ .starting) :
    s.restart.attention.getLsbD 2 = s.attention.getLsbD 2 := by
  have other := otherReason_fault
  have halted : s.restartHalted.attention.getLsbD 2 = s.attention.getLsbD 2 :=
    State.evaluateAndPost_attention_of_other _ other.1 other.2
  have cleared : s.restartCleared.attention.getLsbD 2 = s.restartHalted.attention.getLsbD 2 := by
    rw [State.restartCleared, State.settlePermits_attention_of_other other, State.restartBlocks_attention,
      State.completeAllFree_attention other]
  have posted : s.restartPosted.attention.getLsbD 2 = s.restartCleared.attention.getLsbD 2 :=
    (getLsbD_or_of_other _ other.1).trans (foldl_postHalf_attention other _ _)
  rw [State.restart_eq h, State.attend_getLsbD, State.evaluateAndPost_attention_of_other _ other.1 other.2,
    show attStarted.getLsbD 2 = false from rfl, Bool.or_false, ← halted, ← cleared, ← posted]
  rfl

end

/-- Settles O22: RESTART's parts one by one; what it keeps is the frame's. -/
theorem restartCommand : Obligations.RestartCommand := by
  intro s hp
  refine ⟨fun h => congrArg Host.Outcome.next ((if_pos hp).trans (if_pos h)),
    fun h => ⟨s.restart, congrArg Host.Outcome.next (if_pos hp), ?_⟩⟩
  have frame := State.frame_restart h
  have blocks := s.restart_worked h
  simp only [State.worked, Prod.mk.injEq] at blocks
  obtain ⟨hA, hB, hm, hi, he, hr, hd⟩ := blocks
  have host : ∀ a, hostByte a = true → s.restart.mem.read a = s.mem.read a := fun a ha =>
    read_of_hostBytes (congrArg Frame.host frame) ha
  have current : s.restart.permitsCurrent = true := by
    rw [State.restart_eq h]
    exact State.current_of_inputs (State.permitInputs_attend _ _) (State.evaluateAndPost_current _)
  have enable : s.restart.permits.groupEnable = 0 := congrArg Frame.groupEnable frame
  refine ⟨congrArg Frame.device frame, (congrArg Frame.power frame).trans hp, congrArg Frame.pending frame,
    congrArg Frame.clearing frame, ?_, fun k hk => ?_, fun k hk => ?_, s.restart_pos h, fun l => ?_, ?_, ?_, ?_, ?_, ?_,
    ?_, ?_, hi, he, hr, hd, congrArg Frame.classes frame, congrArg Frame.rules frame, congrArg Frame.ruleLoads frame,
    congrArg Frame.pulses frame, congrArg Frame.levels frame, congrArg Frame.inhibitN frame,
    congrArg Frame.settings frame, congrArg Frame.settingsStatus frame, congrArg Frame.settingsExamined frame,
    congrArg Frame.settingsApplied frame, congrArg Frame.misuse frame, ?_, ?_, ?_, ?_, ?_, ?_,
    congrArg Frame.holds frame, enable, fun g => ?_, current, congrArg Frame.attentionEnable frame, ?_, ?_,
    s.restart_fault h, host⟩
  · rw [show s.restart.watch = s.restartPosted.refill from congrArg Frame.watch frame, State.refill]
    have halves : ∀ p : PosId, s.restartPosted.mem.read (positionAddr p + 0x02) = s.mem.read (0x0102 + 128 * p.val) := by
      intro p
      have hp := p.isLt
      rw [show positionAddr p + 0x02 = 0x0102 + 128 * p.val by simp only [positionAddr]; omega]
      refine read_of_hostBytes (congrArg Frame.host s.frame_restartPosted) (decide_eq_true ?_)
      simp only [Memory.size]
      omega
    simp only [halves, s.restart_owner h]
    rfl
  · exact ⟨(s.restart_keepsSlot h hk).slot, (s.restart_keepsSlot h hk).owner⟩
  · obtain ⟨mark, owner, status⟩ := s.restart_ended h hk
    exact ⟨mark, owner, by rw [show 0x1082 + 256 * k.val = slotAddr k + 0x82 by simp only [slotAddr]; omega, status]; rfl⟩
  · cases l with
    | A => rw [show s.restart.line .A = s.lineA.restart from hA]; exact ⟨rfl, rfl, rfl, rfl, rfl, rfl⟩
    | B => rw [show s.restart.line .B = s.lineB.restart from hB]; exact ⟨rfl, rfl, rfl, rfl, rfl, rfl⟩
  iterate 7 rw [hm]; rfl
  iterate 6 rw [show s.restart.keys = s.keys.restart from congrArg Frame.keys frame]; rfl
  · refine Bool.eq_false_iff.2 fun on => ?_
    obtain ⟨-, -, enabled, -⟩ := (State.permitOutput_iff_mayRun current g).1 on
    rw [enable] at enabled
    exact Bool.false_ne_true (BitVec.getLsbD_zero.symm.trans enabled)
  · rw [State.restart_eq h, State.attend_getLsbD, State.evaluateAndPost_posted, Bool.true_or]
  · rw [State.restart_eq h, State.attend_getLsbD, show attStarted.getLsbD 3 = true from rfl, Bool.or_true]

end Sys2Proof.Machine
end
section
/-! SUPPORT. The settings edition (R179), and what a line's look at the QUIET conditions leaves (R44). -/
namespace Sys2Proof.Machine

theorem State.setLine_line (s : State) (l : LineId) : s.setLine l (s.line l) = s := by cases l <;> rfl

/-- The conditions of R44. -/
def State.mayQuiet (s : State) (l : LineId) : Prop :=
  (s.line l).state = .idle ∧ (s.line l).queue = [] ∧
    (∀ p : PosId, (s.pos p).enabled = true → (s.pos p).applied.line ≠ l) ∧ s.settings.quiet = true ∧
    (s.line l).heldBack = false

theorem State.lineUsed_eq_false_iff (s : State) (l : LineId) :
    s.lineUsed l = false ↔ ∀ p : PosId, (s.pos p).enabled = true → (s.pos p).applied.line ≠ l := by
  rw [← Bool.not_eq_true, State.lineUsed, any_positions_iff]
  simp

theorem State.examineQuiet_of_may {s : State} {l : LineId} (h : s.mayQuiet l) : s.examineQuiet l =
    s.setLine l { s.line l with state := .calling, activity := .quiet 0, pace := .none } := by
  obtain ⟨hs, hq, hu, hset, hb⟩ := h
  exact if_pos ⟨hs, hq, (s.lineUsed_eq_false_iff l).2 hu, hset, hb⟩

theorem State.examineQuiet_of_not {s : State} {l : LineId} (h : ¬ s.mayQuiet l) : s.examineQuiet l = s :=
  if_neg fun ⟨hs, hq, hu, hset, hb⟩ => h ⟨hs, hq, (s.lineUsed_eq_false_iff l).1 hu, hset, hb⟩

/-- The look at the conditions moves nothing but what the line sends. -/
theorem State.examineQuiet_setLine (s : State) (l : LineId) : ∃ y : LineCtl, s.examineQuiet l = s.setLine l y ∧
    y.heldBack = (s.line l).heldBack ∧ y.queue = (s.line l).queue ∧ y.inFlight = (s.line l).inFlight ∧
    y.counts = (s.line l).counts := by
  by_cases h : s.mayQuiet l
  · exact ⟨_, State.examineQuiet_of_may h, rfl, rfl, rfl, rfl⟩
  · exact ⟨s.line l, by rw [State.examineQuiet_of_not h, State.setLine_line], rfl, rfl, rfl, rfl⟩

section
variable (s : State) (l : LineId)

@[simp] theorem State.examineQuiet_positions : (s.examineQuiet l).positions = s.positions := by
  obtain ⟨y, e, -⟩ := s.examineQuiet_setLine l; rw [e, State.setLine_positions]

@[simp] theorem State.examineQuiet_meas : (s.examineQuiet l).meas = s.meas := by
  obtain ⟨y, e, -⟩ := s.examineQuiet_setLine l; rw [e, State.setLine_meas]

@[simp] theorem State.examineQuiet_identity : (s.examineQuiet l).identity = s.identity := by
  obtain ⟨y, e, -⟩ := s.examineQuiet_setLine l; rw [e, State.setLine_identity]

@[simp] theorem State.examineQuiet_retired : (s.examineQuiet l).retired = s.retired := by
  obtain ⟨y, e, -⟩ := s.examineQuiet_setLine l; rw [e, State.setLine_retired]

@[simp] theorem State.examineQuiet_slots : (s.examineQuiet l).slots = s.slots := by
  obtain ⟨y, e, -⟩ := s.examineQuiet_setLine l; rw [e, State.setLine_slots]

@[simp] theorem State.examineQuiet_attention : (s.examineQuiet l).attention = s.attention := by
  obtain ⟨y, e, -⟩ := s.examineQuiet_setLine l; rw [e, State.setLine_attention]

@[simp] theorem State.examineQuiet_mem : (s.examineQuiet l).mem = s.mem := by
  obtain ⟨y, e, -⟩ := s.examineQuiet_setLine l; rw [e, State.setLine_mem]

/-- What the look at QUIET keeps of a line. -/
theorem State.examineQuiet_line (m : LineId) : ((s.examineQuiet l).line m).heldBack = (s.line m).heldBack ∧
    ((s.examineQuiet l).line m).queue = (s.line m).queue ∧
    ((s.examineQuiet l).line m).inFlight = (s.line m).inFlight ∧
    ((s.examineQuiet l).line m).counts = (s.line m).counts := by
  obtain ⟨y, e, hy⟩ := s.examineQuiet_setLine l
  rw [e]
  by_cases h : l = m
  · subst h; rw [State.line_setLine]; exact hy
  · rw [State.line_setLine_ne s y h]; exact ⟨rfl, rfl, rfl, rfl⟩

theorem State.finish_attention {i : Nat} (h : s.attention.getLsbD i = true) : s.finish.attention.getLsbD i = true :=
  State.stopIfIdle_attention _ (State.evaluatePermits_attention _ h)

end

/-! ### The settings record -/

theorem clampWord_eq (n lo hi : Nat) (v : BitVec n) : clampWord n lo hi v =
    if v.toNat < lo then BitVec.ofNat n lo else if hi < v.toNat then BitVec.ofNat n hi else v := by
  unfold clampWord clampNat
  split
  · rfl
  · split
    · rfl
    · exact BitVec.ofNat_toNat n v |>.trans (BitVec.setWidth_eq v)

theorem readSettings_eq (m : Memory) : (readSettings m).1 =
    { retryCount := if 3 < (m.read 0x82).toNat then 3 else m.read 0x82,
      presenceLimit := if m.word32 0x84 = 0 then 1 else if 4000000 < (m.word32 0x84).toNat then 4000000
        else m.word32 0x84,
      groupMask := m.read 0x88, quiet := decide (m.read 0x89 ≠ 0) } := by
  have retry : BitVec.ofNat 8 (clampNat 0 3 (m.read 0x82).toNat) =
      if 3 < (m.read 0x82).toNat then 3 else m.read 0x82 := by
    rw [show BitVec.ofNat 8 (clampNat 0 3 (m.read 0x82).toNat) = clampWord 8 0 3 (m.read 0x82) from rfl, clampWord_eq,
      if_neg (Nat.not_lt_zero _)]
    rfl
  have limit : BitVec.ofNat 32 (clampNat 1 4000000 (m.word32 0x84).toNat) = if m.word32 0x84 = 0 then 1
      else if 4000000 < (m.word32 0x84).toNat then 4000000 else m.word32 0x84 := by
    have low : (m.word32 0x84).toNat < 1 ↔ m.word32 0x84 = 0 := by bv_omega
    rw [show BitVec.ofNat 32 (clampNat 1 4000000 (m.word32 0x84).toNat) = clampWord 32 1 4000000 (m.word32 0x84) from rfl,
      clampWord_eq]
    simp only [low]
    rfl
  rw [← retry, ← limit]
  rfl

theorem readSettings_clamped (m : Memory) : (readSettings m).2 =
    decide (3 < (m.read 0x82).toNat ∨ m.word32 0x84 = 0 ∨ 4000000 < (m.word32 0x84).toNat) := by
  have low : (m.word32 0x84).toNat < 1 ↔ m.word32 0x84 = 0 := by bv_omega
  refine decide_eq_decide.2 ?_
  rw [clampNat_ne_iff (by omega), clampNat_ne_iff (by omega)]
  simp only [settingsAddr, Nat.reduceAdd, low, Nat.not_lt_zero, false_or]

/-- The permits settled for the settings as taken: what is posted. -/
def State.settingsSettled (s : State) : State := s.settingsTaken.settlePermits

theorem State.applySettings_settled (s : State) :
    s.applySettings = ((s.settingsSettled.postBlock).examineQuiet .A).examineQuiet .B := rfl

theorem exec_settingsEditionTaken_of_head {s : State} {rest : List WatchId} (h : s.entryAtHead 24 rest) :
    exec .settingsEditionTaken s = .next (s.withWatch rest).applySettings.finish := by
  show execSettingsEditionTaken s = _
  unfold execSettingsEditionTaken
  rw [State.takeEntry_of_head h]
  exact congrArg Host.Outcome.next (if_pos rfl)

/-- PERMIT is set exactly when the permit word changes. -/
theorem State.settlePermits_permit {s : State} (h : s.settlePermits.permits.permitWord ≠ s.permits.permitWord) :
    s.settlePermits.attention.getLsbD 1 = true := by
  have changed : permitWordOf s.blockerSets ≠ s.permits.permitWord := h
  rw [State.settlePermits]
  dsimp only
  rw [if_neg changed, BitVec.getLsbD_or, show attPermit.getLsbD 1 = true from rfl, Bool.or_true]

theorem State.settlePermits_attention_same {s : State} (h : s.settlePermits.permits.permitWord = s.permits.permitWord) :
    s.settlePermits.attention = s.attention := if_pos h

theorem State.settingsTaken_eq (s : State) : s.settingsTaken = { s with
    settings := (readSettings s.mem).1,
    settingsStatus := if (readSettings s.mem).2 then .appliedClamped else .applied,
    settingsExamined := s.mem.word settingsAddr, settingsApplied := s.mem.word settingsAddr,
    permits := { s.permits with groupEnable := (readSettings s.mem).1.groupMask },
    lineA := { s.lineA with heldBack := false }, lineB := { s.lineB with heldBack := false } } := rfl

/-- Of the frame, the posting, the looks at QUIET and the tail move the device state alone. -/
theorem State.frame_applySettings_finish (s : State) : s.applySettings.finish.frame =
    { s.settingsTaken.frame with device := s.applySettings.finish.device } := by
  rw [State.frame_finish, State.applySettings_eq, State.frame_examineQuiet, State.frame_examineQuiet,
    State.frame_evaluateAndPost]

theorem State.applySettings_kept (s : State) : s.applySettings.positions = s.positions ∧
    s.applySettings.meas = s.meas ∧ s.applySettings.identity = s.identity ∧ s.applySettings.retired = s.retired ∧
    s.applySettings.slots = s.slots := by
  simp [State.applySettings_settled, State.settingsSettled, State.settingsTaken_eq]

/-- The settings end the held-back mark of each line and leave its work. -/
theorem State.applySettings_line (s : State) (l : LineId) : (s.applySettings.line l).heldBack = false ∧
    (s.applySettings.line l).queue = (s.line l).queue ∧ (s.applySettings.line l).inFlight = (s.line l).inFlight ∧
    (s.applySettings.line l).counts = (s.line l).counts := by
  obtain ⟨b1, q1, f1, c1⟩ := (s.settingsSettled.postBlock.examineQuiet .A).examineQuiet_line .B l
  obtain ⟨b2, q2, f2, c2⟩ := s.settingsSettled.postBlock.examineQuiet_line .A l
  rw [State.applySettings_settled, b1, q1, f1, c1, b2, q2, f2, c2]
  cases l <;> exact ⟨rfl, rfl, rfl, rfl⟩

/-- Settles O29: the record taken and the permits settled, then the posting, the looks at QUIET and the tail. -/
theorem settingsApplied : Obligations.SettingsApplied := by
  intro s rest h
  dsimp only
  let u := s.withWatch rest
  have frame := u.frame_applySettings_finish
  obtain ⟨positions, meas, identity, retired, slots⟩ := u.applySettings_kept
  have settings : u.applySettings.finish.settings = (readSettings s.mem).1 := congrArg Frame.settings frame
  have status : u.applySettings.finish.settingsStatus =
      if (readSettings s.mem).2 then .appliedClamped else .applied := congrArg Frame.settingsStatus frame
  have examined : u.applySettings.finish.settingsExamined = s.mem.word settingsAddr :=
    congrArg Frame.settingsExamined frame
  have applied : u.applySettings.finish.settingsApplied = s.mem.word settingsAddr := congrArg Frame.settingsApplied frame
  refine ⟨u.applySettings.finish, u.settingsSettled, exec_settingsEditionTaken_of_head h, rfl, ?_, rfl, rfl,
    State.settlePermits_current _, State.settlePermits_permit, State.settlePermits_attention_same, ?_, ?_, examined,
    applied, congrArg Frame.groupEnable frame, congrArg Frame.holds frame, State.finish_current _,
    congrArg Frame.watch frame, (State.finish_positions _).trans positions, fun l => ?_,
    (State.finish_meas _).trans meas, (State.finish_identity _).trans identity,
    (State.finish_retired _).trans retired, (State.finish_slots _).trans slots, congrArg Frame.keys frame, congrArg Frame.classes frame,
    congrArg Frame.rules frame, ?_, fun a ha => read_of_hostBytes (congrArg Frame.host frame) ha⟩
  · rw [settings, status, examined, applied]
    rfl
  · rw [settings, readSettings_eq]
  · rw [status, readSettings_clamped]
    simp only [decide_eq_true_eq]
  · rw [State.finish_line]
    exact u.applySettings_line l
  · refine State.finish_attention _ ?_
    rw [State.applySettings_settled, State.examineQuiet_attention, State.examineQuiet_attention]
    exact State.postBlock_posted _
end Sys2Proof.Machine
end
section
/-! SUPPORT. The events of a tag line one by one (R30, R35 to R51): calls, failed attempts, the end of a rest, QUIET, WAKE
and the stuck line. -/
namespace Sys2Proof.Machine

/-! ### Rounding -/

/-- The rounded quotient is the one that the scope's definition names. -/
theorem roundNat_of_isRounded {n d r : Nat} (h : isRounded n d r) : roundNat n d = r := by
  obtain ⟨low, high⟩ := h
  refine Nat.div_eq_of_lt_le ?_ ?_
  · calc r * (2 * d) = 2 * r * d := by rw [Nat.mul_comm 2 r, Nat.mul_assoc]
      _ ≤ 2 * n + d := low
  · calc 2 * n + d < 2 * (r + 1) * d := high
      _ = (r + 1) * (2 * d) := by rw [Nat.mul_comm 2 (r + 1), Nat.mul_assoc]

/-! ### The line stands in a state -/

theorem State.lineIn_iff {s : State} {l : LineId} {x : LineState} :
    s.lineIn l x = true ↔ s.power = .on ∧ (s.line l).state = x := decide_eq_true_iff

/-! ### Calls (R35, R37, R47) -/

theorem exec_lineTransactionStart_of_idle {s : State} {l : LineId} {r : LineRequest} {rest : List LineRequest}
    (h : s.lineIn l .idle = true) (hq : (s.line l).queue = r :: rest) : exec (.lineTransactionStart l) s =
      .next (s.setLine l ({ s.line l with queue := rest }.sendCall (Transaction.start r))) := by
  show execLineTransactionStart l s = _
  unfold execLineTransactionStart
  rw [hq]
  exact congrArg Host.Outcome.next (if_pos h)

theorem exec_replyStart_of_awaiting {s : State} {l : LineId} (h : s.lineIn l .awaiting = true) (e : PaceEdges) :
    exec (.replyStart l e) s = .next (s.setLine l { s.line l with state := .receiving, pace := measurePace e }) :=
  congrArg Host.Outcome.next (if_pos h)

/-- Every span of the pace byte lies in its window. -/
def paceSpansOk (e : PaceEdges) : Prop :=
  spanOk (paceSpan e) e.span1 ∧ spanOk (paceSpan e) e.span2 ∧ spanOk (paceSpan e) e.span3 ∧ spanOk (paceSpan e) e.span4

theorem paceSpansOk_iff (e : PaceEdges) : paceSpansOk e ↔
    ∀ v, v = e.span1 ∨ v = e.span2 ∨ v = e.span3 ∨ v = e.span4 → 3 * paceSpan e ≤ 16 * v ∧ 16 * v ≤ 5 * paceSpan e := by
  simp [paceSpansOk, spanOk]

theorem measurePace_of_malformed {e : PaceEdges}
    (h : 16000 < paceSpan e ∨ ¬ paceSpansOk e ∨ e.stopHigh = false ∨ clockRatio (paceSpan e) < 7500 ∨
      12500 < clockRatio (paceSpan e)) : measurePace e = .malformed := if_pos h

theorem measurePace_of_ratio {e : PaceEdges} (h1 : paceSpan e ≤ 16000) (h2 : paceSpansOk e) (h3 : e.stopHigh = true)
    (h4 : 7500 ≤ clockRatio (paceSpan e)) (h5 : clockRatio (paceSpan e) ≤ 12500) :
    measurePace e = .measured (paceSpan e) (BitVec.ofNat 16 (clockRatio (paceSpan e))) := by
  refine if_neg ?_
  rintro (h | h | h | h | h)
  · omega
  · exact h h2
  · exact absurd (h3.symm.trans h) (by decide)
  · omega
  · omega

/-- Settles O46: the start, the end of the call and the pace byte, each by its condition. -/
theorem transactionSteps : Obligations.TransactionSteps := by
  intro s l hp
  dsimp only
  refine ⟨fun r rest hi hq => exec_lineTransactionStart_of_idle (State.lineIn_iff.2 ⟨hp, hi⟩) hq,
    fun hc ha => congrArg Host.Outcome.next (if_pos ⟨State.lineIn_iff.2 ⟨hp, hc⟩, ha⟩), fun e _ hs => ?_⟩
  have start := exec_replyStart_of_awaiting (State.lineIn_iff.2 ⟨hp, hs⟩) e
  have spans := paceSpansOk_iff e
  refine ⟨fun h => ?_, fun r h1 h2 h3 hr => ?_⟩
  · rw [start, measurePace_of_malformed]
    exact h.imp_right fun h => h.imp (mt spans.1) Or.inl
  · have ratio : clockRatio (paceSpan e) = r := by
      rw [← roundNat_of_isRounded hr, clockRatio, show 416667 * 10000 * 2 = 2 * 416667 * 10000 from rfl]
      rfl
    refine ⟨fun h => ?_, fun h4 h5 => ?_⟩
    · rw [start, measurePace_of_malformed (.inr (.inr (.inr (ratio.symm ▸ h))))]
    · rw [start, measurePace_of_ratio h1 (spans.2 h2) h3 (ratio.symm ▸ h4) (ratio.symm ▸ h5), ratio]
      rfl

/-! ### Failed attempts (R30, R38) -/

theorem LineCtl.failReadback_of_call {x : LineCtl} (h : x.activity = .call) :
    x.failReadback = x.failAttempt .readback := by
  unfold LineCtl.failReadback
  rw [h]

theorem LineCtl.failReadback_of_quiet {x : LineCtl} {n : Nat} (h : x.activity = .quiet n) :
    x.failReadback = { x with state := .resting, counts := x.counts.attempt .readback } := by
  unfold LineCtl.failReadback
  rw [h]

theorem LineCtl.failReadback_of_wake {x : LineCtl} {n : Nat} {again stuck : Bool} (h : x.activity = .wake n again stuck) :
    x.failReadback =
      { x with state := .resting, activity := .wake n true stuck, counts := x.counts.attempt .readback } := by
  unfold LineCtl.failReadback
  rw [h]

theorem exec_readbackFailure_of_bit {s : State} {l : LineId} {bit : Nat} {b : Bool} (level : Bool)
    (h : (s.line l).sendingBits[bit]? = some b) : exec (.readbackFailure l bit level) s =
      .next (if s.power = .on ∧ b ≠ level then (s.modLine l LineCtl.failReadback).touchBlock else s) := by
  show execReadbackFailure l bit level s = _
  unfold execReadbackFailure
  rw [h]

theorem exec_replyAttemptError_of_error {s : State} {l : LineId} {es : List RxEdge} {e : LineError}
    (h : s.lineIn l .receiving = true) (he : (s.line l).reception es = some (.error e)) :
    exec (.replyAttemptError l es) s = .next (s.modLine l (fun x => x.failAttempt e)).touchBlock := by
  show execReplyAttemptError l es s = _
  unfold execReplyAttemptError
  rw [he]
  exact congrArg Host.Outcome.next (if_pos h)

theorem LineCtl.reception_of_malformed {x : LineCtl} {t : Transaction} (ht : x.inFlight = some t)
    (hp : x.pace = .malformed) (es : List RxEdge) : x.reception es = some (.error .pace) := by
  unfold LineCtl.reception
  rw [ht, hp]

theorem LineCtl.reception_of_measured {x : LineCtl} {t : Transaction} {t8 : Nat} {r : Word16}
    (ht : x.inFlight = some t) (hp : x.pace = .measured t8 r) (es : List RxEdge) :
    x.reception es = some (receive t.request.command t8 [] es) := by
  unfold LineCtl.reception
  rw [ht, hp]

theorem judgeReply_error {bytes : List Byte} {e : LineError} (h : judgeReply bytes = .error e) :
    e = .check ∨ e = .length := by
  unfold judgeReply at h
  split at h
  · split at h
    · exact .inr (RxOutcome.error.inj h).symm
    · exact RxOutcome.noConfusion h
  · exact .inl (RxOutcome.error.inj h).symm

/-- A reception that fails, fails with CHECK or LENGTH (R34, R36). -/
theorem receive_error {c : LineCommand} {t8 : Nat} {got : List Byte} {es : List RxEdge} {e : LineError}
    (h : receive c t8 got es = .error e) : e = .check ∨ e = .length := by
  have length : ∀ {e' : LineError}, RxOutcome.error .length = .error e' → e' = .check ∨ e' = .length :=
    fun h => .inr (RxOutcome.error.inj h).symm
  induction es generalizing got with
  | nil =>
    unfold receive at h
    split at h
    · exact judgeReply_error h
    · exact length h
    · exact length h
  | cons x es ih =>
    unfold receive at h
    split at h
    · exact length h
    · split at h
      · exact length h
      · exact judgeReply_error h
    · split at h
      · exact length h
      · split at h
        · exact ih h
        · split at h
          · exact .inl (RxOutcome.error.inj h).symm
          · exact ih h

/-- Settles O48: each failure of an attempt by the state of the line. -/
theorem attemptFails : Obligations.AttemptFails := by
  intro s l hp
  dsimp only
  refine ⟨fun bit level b hb => ?_, fun hs => congrArg Host.Outcome.next (if_pos (State.lineIn_iff.2 ⟨hp, hs⟩)),
    fun es t hs ht => ⟨fun hm => ?_, fun t8 r e hm he => ?_⟩⟩
  · rw [exec_readbackFailure_of_bit level hb]
    have failed : level ≠ b → (s.power = .on ∧ b ≠ level) := fun h => ⟨hp, Ne.symm h⟩
    refine ⟨fun h => congrArg Host.Outcome.next (if_neg fun e => e.2 h.symm), fun h ha => ?_, fun n h ha => ?_,
      fun n again stuck h ha => ?_⟩
    · rw [if_pos (failed h), State.modLine, LineCtl.failReadback_of_call ha]; rfl
    · rw [if_pos (failed h), State.modLine, LineCtl.failReadback_of_quiet ha]; rfl
    · rw [if_pos (failed h), State.modLine, LineCtl.failReadback_of_wake ha]; rfl
  · exact exec_replyAttemptError_of_error (State.lineIn_iff.2 ⟨hp, hs⟩) (LineCtl.reception_of_malformed ht hm es)
  · have fails := exec_replyAttemptError_of_error (es := es) (e := e) (State.lineIn_iff.2 ⟨hp, hs⟩)
      (by rw [LineCtl.reception_of_measured ht hm, he])
    refine ⟨fun h => ?_, fun h => ?_, receive_error he⟩
    · rw [fails, h]; rfl
    · rw [fails, h]; rfl

end Sys2Proof.Machine
end
section
/-! SUPPORT. How transactions end (R36 to R41, R48), the end of a rest (R39, R40, R44, R45), and the stuck line (R42, R43). -/
namespace Sys2Proof.Machine

/-! ### Completed replies -/

theorem exec_replyComplete_of_reply {s : State} {l : LineId} {es : List RxEdge} {t : Transaction} {status : Byte}
    {data : List Byte} (h : s.lineIn l .receiving = true) (ht : (s.line l).inFlight = some t)
    (hr : (s.line l).reception es = some (.reply status data)) : exec (.replyComplete l es) s =
      .next (s.endTransaction l ((s.line l).endReply status) t
        (.reply status data (s.line l).pace.ratio t.retries)) := by
  show execReplyComplete l es s = _
  unfold execReplyComplete
  rw [hr, ht]
  exact congrArg Host.Outcome.next (if_pos h)

theorem LineCtl.endReply_eq (x : LineCtl) (status : Byte) : x.endReply status = { x with
    state := .idle, activity := .none, pace := .none, inFlight := none,
    counts := { x.counts with
      transactions := satInc x.counts.transactions
      status := if status = 0 then x.counts.status else satInc x.counts.status } } := by
  unfold LineCtl.endReply
  split <;> rfl

section
variable (s : State) (k : SlotId) (status : Byte) (data : List Byte) (ratio : Word16) (n : Nat)

theorem State.taskLine_reply_of_carrying (first count : Byte) (h : status = 0 ∨ status = 6) :
    s.taskLine k (.readBlocks first count) (.reply status data ratio n) = s.complete k .ok
      ([status, byteAt data 0] ++ bytes16 ratio ++ [BitVec.ofNat 8 n, 0] ++ data.drop 1) := by
  unfold State.taskLine
  simp only [decide_eq_true h, Bool.true_and, if_true]

theorem State.taskLine_reply_of_bare (first count : Byte) (h : ¬ (status = 0 ∨ status = 6)) :
    s.taskLine k (.readBlocks first count) (.reply status data ratio n) = s.complete k .ok
      ([status, 0] ++ bytes16 ratio ++ [BitVec.ofNat 8 n, 0] ++ []) := by
  unfold State.taskLine
  simp only [decide_eq_false h, Bool.and_false, Bool.false_eq_true, if_false]

theorem State.taskLine_reply_of_write (block : Byte) (w : Word32) :
    s.taskLine k (.writeBlock block w) (.reply status data ratio n) = s.complete k .ok
      ([status, 0] ++ bytes16 ratio ++ [BitVec.ofNat 8 n, 0] ++ []) := by
  unfold State.taskLine
  simp only [Bool.false_and, Bool.false_eq_true, if_false]

end

/-- Settles O49: the line IDLE and counted, the hand-over by disposition and requester, the look at QUIET, the tail. -/
theorem replyCompletes : Obligations.ReplyCompletes := by
  intro s l es t t8 ratio status data hp hs ht hm hr
  have completes := exec_replyComplete_of_reply (State.lineIn_iff.2 ⟨hp, hs⟩) ht
    (by rw [LineCtl.reception_of_measured ht hm, hr])
  rw [LineCtl.endReply_eq, hm] at completes
  have ends : ∀ {o : LineResult} {u v : State}, u.conclude t o = v →
      Host.Outcome.next ((u.conclude t o).examineQuiet l).finish =
        (Host.Outcome.next (v.examineQuiet l).finish : Host.Outcome State Fault Refusal) := fun h => by rw [h]
  refine ⟨fun hd => ?_, fun k hd hk => ?_, fun k first count n blocks hd hk hc hst hdata => ?_,
    fun k first count hd hk hc h0 h6 => ?_, fun k block w hd hk hc => ?_, fun p hd hq => ?_⟩
  all_goals refine completes.trans (ends ?_)
  · exact State.conclude_of_withdrawn hd _
  · exact State.conclude_of_cancelled hd hk _
  · rw [State.conclude_of_live hd, State.handLine_of_task hk, hc, State.taskLine_reply_of_carrying _ _ _ _ _ _ _ _ hst,
      hdata]
    rfl
  · rw [State.conclude_of_live hd, State.handLine_of_task hk, hc,
      State.taskLine_reply_of_bare _ _ _ _ _ _ _ _ (not_or.2 ⟨h0, h6⟩)]
    rfl
  · rw [State.conclude_of_live hd, State.handLine_of_task hk, hc, State.taskLine_reply_of_write]
    rfl
  · rw [State.conclude_of_live hd, State.handLine_of_position hq]
    rfl

/-! ### The end of a rest -/

section
variable {s : State} {l : LineId} (h : s.lineIn l .resting = true)
include h

theorem exec_lineRestEnd_of_call {t : Transaction} (ha : (s.line l).activity = .call)
    (ht : (s.line l).inFlight = some t) : exec (.lineRestEnd l) s = .next (s.restAfterCall l t) := by
  show execLineRestEnd l s = _
  unfold execLineRestEnd
  rw [if_pos h, ha, ht]

theorem exec_lineRestEnd_of_quiet {n : Nat} (ha : (s.line l).activity = .quiet n) :
    exec (.lineRestEnd l) s = .next (s.restAfterQuiet l n) := by
  show execLineRestEnd l s = _
  unfold execLineRestEnd
  rw [if_pos h, ha]

theorem exec_lineRestEnd_of_wake {n : Nat} {again stuck : Bool} (ha : (s.line l).activity = .wake n again stuck) :
    exec (.lineRestEnd l) s = .next (s.restAfterWake l n again stuck) := by
  show execLineRestEnd l s = _
  unfold execLineRestEnd
  rw [if_pos h, ha]

end

theorem Transaction.retryDue_iff (t : Transaction) (settings : Settings) :
    t.retryDue settings = true ↔ t.disposition = .live ∧ t.retries < settings.retryCount.toNat := decide_eq_true_iff

theorem State.restAfterCall_of_due {s : State} (l : LineId) {t : Transaction} (h : t.retryDue s.settings = true) :
    s.restAfterCall l t = (s.setLine l ((s.line l).retry t)).touchBlock := if_pos h

theorem State.restAfterCall_of_not_due {s : State} (l : LineId) {t : Transaction} (h : ¬ t.retryDue s.settings = true) :
    s.restAfterCall l t = s.endTransaction l { (s.line l).toIdle with counts := (s.line l).counts.transaction } t
      (.failure (t.lastError.getD .noReply) t.retries) := if_neg h

theorem State.endResets_of_none {s : State} {l : LineId} (h : (s.line l).resetTasks = []) : s.endResets l = s := if_pos h

theorem State.endResets_of_some {s : State} {l : LineId} (h : (s.line l).resetTasks ≠ []) : s.endResets l =
    (s.line l).resetTasks.foldl (fun v w => v.complete w.slot .ok [w.found.code, flagByte w.failed, BitVec.ofNat 8 w.queued])
      (s.setLine l { s.line l with resetTasks := [] }).postBlock := if_neg h

/-- The line that has left its rest after a WAKE; leaving STUCK is posted. -/
def State.restLeft (s : State) (l : LineId) (stuck : Bool) : State :=
  if stuck = true then (s.setLine l (s.line l).toIdle).postBlock else s.setLine l (s.line l).toIdle

theorem State.line_restLeft (s : State) (l : LineId) (stuck : Bool) :
    (s.restLeft l stuck).line l = (s.line l).toIdle := by
  unfold State.restLeft
  split
  · rw [State.line_postBlock, State.line_setLine]
  · rw [State.line_setLine]

theorem State.restAfterWake_of_due {s : State} (l : LineId) {n : Nat} {again : Bool} (stuck : Bool)
    (h : again = true ∧ n < s.settings.retryCount.toNat) : s.restAfterWake l n again stuck =
      s.setLine l { s.line l with state := .calling, activity := .wake (n + 1) false stuck } := if_pos h

theorem State.restAfterWake_of_not_due {s : State} (l : LineId) {n : Nat} {again : Bool} (stuck : Bool)
    (h : ¬ (again = true ∧ n < s.settings.retryCount.toNat)) : s.restAfterWake l n again stuck =
      (((s.restLeft l stuck).endResets l).examineQuiet l).finish := if_neg h

/-- An error of an attempt fails its task with LINE_FAILED. -/
theorem lineFailureStatus_of_attempt {e : LineError} (h : e ≠ .stuck) (h' : e ≠ .reset) :
    lineFailureStatus e = .lineFailed := by
  cases e with
  | stuck => exact absurd rfl h
  | reset => exact absurd rfl h'
  | readback | noReply | pace | check | length => rfl

/-- Settles O50: the end of a rest by what the line was sending. -/
theorem restEnds : Obligations.RestEnds := by
  intro s l hp hs
  dsimp only
  have resting := State.lineIn_iff.2 ⟨hp, hs⟩
  refine ⟨fun t ha ht => ?_, fun n ha => ?_, fun n again stuck ha => ?_⟩
  · rw [exec_lineRestEnd_of_call resting ha ht, ← t.retryDue_iff]
    have ends : ¬ t.retryDue s.settings = true → ∀ {v : State},
        ((s.setLine l { (s.line l).toIdle with counts := (s.line l).counts.transaction }).touchBlock).conclude t
          (.failure (t.lastError.getD .noReply) t.retries) = v →
        (Host.Outcome.next (s.restAfterCall l t) : Host.Outcome State Fault Refusal) =
          .next (v.examineQuiet l).finish :=
      fun h v hv => by rw [State.restAfterCall_of_not_due l h, State.endTransaction, hv]
    refine ⟨fun h => ?_, fun h hd => ?_, fun k h hd hk => ?_, fun k e h hd hk he hstuck hreset => ?_,
      fun p e h hd hq he => ?_⟩
    · rw [State.restAfterCall_of_due l h]
      simp only [LineCtl.retry, LineCtl.sendCall, LineCounts.retry, ha]
    · exact ends h (State.conclude_of_withdrawn hd _)
    · exact ends h (State.conclude_of_cancelled hd hk _)
    · refine ⟨Config.unstatedByte s.free 0, ends h ?_⟩
      rw [State.conclude_of_live hd, State.handLine_of_task hk, he, State.taskLine_failure, Option.getD_some,
        lineFailureStatus_of_attempt hstuck hreset, State.touchBlock_free, State.setLine_free]
      rfl
    · refine ends h ?_
      rw [State.conclude_of_live hd, State.handLine_of_position hq, he]
      rfl
  · rw [exec_lineRestEnd_of_quiet resting ha]
    exact ⟨fun h => congrArg Host.Outcome.next (if_pos h), fun h => congrArg Host.Outcome.next (if_neg (Nat.not_lt.2 h))⟩
  · rw [exec_lineRestEnd_of_wake resting ha]
    have line := s.line_restLeft l stuck
    refine ⟨fun h => congrArg Host.Outcome.next (State.restAfterWake_of_due l stuck h), fun h hr => ?_, fun h hr => ?_⟩
    · rw [State.restAfterWake_of_not_due l stuck h, State.endResets_of_none (by rw [line]; exact hr)]
      rfl
    · rw [State.restAfterWake_of_not_due l stuck h, State.endResets_of_some (by rw [line]; exact hr), line]
      rfl

/-! ### QUIET, WAKE and the stuck line -/

theorem State.enterQuiet_eq (s : State) (l : LineId) :
    s.enterQuiet l =
      let s1 := (s.setLine l { s.line l with state := .quiet, activity := .none }).postBlock
      if (s1.line l).queue = [] then s1 else (s1.setLine l ((s1.line l).wake false)).postBlock := rfl

theorem LineCtl.stick_eq (x : LineCtl) : x.stick = { x with
    state := .stuck, activity := .none, pace := .none, queue := [], inFlight := none,
    counts := { x.counts with
      transactions := if x.inFlight.isSome then satInc x.counts.transactions else x.counts.transactions
      stuck := satInc x.counts.stuck } } := by
  unfold LineCtl.stick
  split <;> rfl

theorem State.failAll_nothing (s : State) (e : LineError) : s.failAll none [] e = s := rfl

theorem exec_quietSent_of_quiet {s : State} {l : LineId} {n : Nat} (h : s.lineIn l .calling = true)
    (ha : (s.line l).activity = .quiet n) : exec (.quietSent l) s = .next (s.enterQuiet l).finish :=
  congrArg Host.Outcome.next (if_pos ⟨h, by rw [ha]; rfl⟩)

theorem exec_wakeSent_of_wake {s : State} {l : LineId} {n : Nat} {again stuck : Bool} (h : s.lineIn l .calling = true)
    (ha : (s.line l).activity = .wake n again stuck) :
    exec (.wakeSent l) s = .next (s.setLine l { s.line l with state := .resting }) :=
  congrArg Host.Outcome.next (if_pos ⟨h, by rw [LineCtl.waking, ha]⟩)

theorem exec_lineStuckEntry_of_on {s : State} {l : LineId} (hp : s.power = .on) (hs : (s.line l).state ≠ .stuck)
    (hc : (s.line l).state ≠ .calling) : exec (.lineStuckEntry l) s = .next (s.stickLine l) :=
  congrArg Host.Outcome.next (if_pos ⟨hp, hs, hc⟩)

/-- Settles O51: the look at QUIET by its conditions; QUIET and WAKE sent; STUCK entered and left. -/
theorem quietWakeAndStuck : Obligations.QuietWakeAndStuck := by
  refine ⟨failsInOrder_of_status rfl rfl, fun s l => ?_⟩
  dsimp only
  refine ⟨State.examineQuiet_of_may, State.examineQuiet_of_not, fun n hp hs ha => ?_,
    fun n again stuck hp hs ha => exec_wakeSent_of_wake (State.lineIn_iff.2 ⟨hp, hs⟩) ha, fun hp hs hc => ?_,
    fun hp h => congrArg Host.Outcome.next (if_neg fun e => h.elim e.2.1 e.2.2),
    fun hp hs => congrArg Host.Outcome.next (if_pos (State.lineIn_iff.2 ⟨hp, hs⟩))⟩
  · rw [exec_quietSent_of_quiet (State.lineIn_iff.2 ⟨hp, hs⟩) ha, State.enterQuiet_eq]
    simp only [State.line_postBlock, State.line_setLine]
    refine ⟨fun hq => ?_, fun hq => ?_⟩
    · rw [if_pos hq]
    · rw [if_neg hq]
      rfl
  · have entry := exec_lineStuckEntry_of_on hp hs hc
    rw [State.stickLine, LineCtl.stick_eq] at entry
    refine ⟨entry, fun hf hq hr => ?_, fun hf hq hr => ?_⟩
    · rw [entry, hf, hq, State.failAll_nothing,
        State.endResets_of_none (by rw [State.line_postBlock, State.line_setLine]; exact hr)]
    · rw [entry, hf, hq, State.failAll_nothing,
        State.endResets_of_some (by rw [State.line_postBlock, State.line_setLine]; exact hr), State.line_postBlock,
        State.line_setLine]

end Sys2Proof.Machine
end
section
/-! SUPPORT. Timers, inputs and the cycle pulse (R9, R10, R97, R98, R157). -/
namespace Sys2Proof.Machine

/-! ### Input levels -/

theorem setLevel_getLsbD (levels : BitVec 8) (j k : InputId) (high : Bool) :
    (setLevel levels k high).getLsbD j.val = if j = k then high else levels.getLsbD j.val := by
  have bit : (1#8 <<< k.val).getLsbD j.val = decide (j = k) := by
    revert j k
    decide
  have hj : j.val < 8 := j.isLt
  unfold setLevel
  cases high
  · rw [if_neg (by decide), BitVec.getLsbD_and, BitVec.getLsbD_not, bit, decide_eq_true hj, Bool.true_and]
    by_cases e : j = k <;> simp [e]
  · rw [if_pos rfl, BitVec.getLsbD_or, bit]
    by_cases e : j = k <;> simp [e]

/-! ### Timers -/

theorem Timer.isRunning_iff (t : Timer) : t.isRunning = true ↔ ∃ v, t = .running v := by
  cases t <;> simp [Timer.isRunning]

theorem State.timerExpiry_of_idle {s : State} {p : PosId} (h : (s.pos p).seq = .idle) :
    s.timerExpiry p = (s.setPos p { s.pos p with owed := true }).choose p := by
  unfold State.timerExpiry
  dsimp only
  rw [h]

theorem State.timerExpiry_of_busy {s : State} {p : PosId} (h : (s.pos p).seq = .cycle ∨ (s.pos p).seq = .commit) :
    s.timerExpiry p = s.setPos p { s.pos p with
      owed := true, overruns := satInc (s.pos p).overruns, timer := .running (s.pos p).applied.interval } := by
  unfold State.timerExpiry
  dsimp only
  rcases h with h | h <;> rw [h]

/-- Settles O54: each event by whether it finds something to do. -/
theorem timersAndInputs : Obligations.TimersAndInputs := by
  intro s hp
  refine ⟨fun p => ⟨fun h => ?_, fun v hv => ?_⟩, fun level => ⟨fun h => ?_, fun h => ?_⟩, fun k => ?_,
    fun p => ⟨fun h => congrArg Host.Outcome.next (if_pos ⟨hp, h⟩), fun h => ?_⟩,
    fun h => congrArg Host.Outcome.next (if_pos ⟨hp, h⟩), fun h => ?_⟩
  · refine congrArg Host.Outcome.next (if_neg fun e => ?_)
    obtain ⟨v, hv⟩ := (Timer.isRunning_iff _).1 e.2
    exact h v hv
  · have expires : exec (.intervalTimerExpiry p) s = .next (s.timerExpiry p).finish :=
      congrArg Host.Outcome.next (if_pos ⟨hp, (Timer.isRunning_iff _).2 ⟨v, hv⟩⟩)
    refine ⟨fun h => ?_, fun h => ?_⟩
    · rw [expires, State.timerExpiry_of_idle h]
    · rw [expires, State.timerExpiry_of_busy h]
  · exact congrArg Host.Outcome.next (if_neg fun e => e.2 h.symm)
  · exact congrArg Host.Outcome.next (if_pos ⟨hp, Ne.symm h⟩)
  · refine ⟨_, congrArg Host.Outcome.next (if_pos hp), rfl, fun j => ?_⟩
    rw [setLevel_getLsbD]
    by_cases e : j = k <;> simp [e]
  · exact congrArg Host.Outcome.next (if_neg fun e => Bool.false_ne_true (h.symm.trans e.2))
  · exact congrArg Host.Outcome.next (if_neg fun e => Bool.false_ne_true (h.symm.trans e.2))

/-! ### The cycle pulse -/

theorem State.mem_pulsed (s : State) (k : InputId) (p : PosId) :
    p ∈ s.pulsed k ↔ (s.pos p).enabled = true ∧ (s.pos p).applied.cycleInput = some k := by
  simp [State.pulsed, Position.takesPulse, mem_allPositions]

theorem State.pulsed_nodup (s : State) (k : InputId) : (s.pulsed k).Nodup := allPositions_nodup.filter _

/-- The positions that a pulse reaches, in the order in which it reaches them. -/
def State.reached (s : State) (k : InputId) : List PosId := inFreeOrder s.free (s.pulsed k)

theorem State.reached_nodup (s : State) (k : InputId) : (s.reached k).Nodup := inFreeOrder_nodup _ (s.pulsed_nodup k)

theorem State.countPulse_eq (s : State) (k : InputId) :
    s.countPulse k = ((s.reached k).foldl State.pulseAt (s.countInput k)).draw := rfl

theorem State.pulseAt_eq (s : State) (p : PosId) : s.pulseAt p = { s with
    positions := (s.pulseAt p).positions, permits := (s.pulseAt p).permits, attention := (s.pulseAt p).attention,
    mem := (s.pulseAt p).mem, blockEdition := (s.pulseAt p).blockEdition, blockDirty := (s.pulseAt p).blockDirty } := by
  unfold State.pulseAt
  rw [State.evaluatePermits_eq]
  rfl

theorem foldl_pulseAt_eq (l : List PosId) (s : State) : l.foldl State.pulseAt s = { s with
    positions := (l.foldl State.pulseAt s).positions, permits := (l.foldl State.pulseAt s).permits,
    attention := (l.foldl State.pulseAt s).attention, mem := (l.foldl State.pulseAt s).mem,
    blockEdition := (l.foldl State.pulseAt s).blockEdition, blockDirty := (l.foldl State.pulseAt s).blockDirty } := by
  induction l generalizing s with
  | nil => rfl
  | cons p l ih => rw [List.foldl_cons, ih, s.pulseAt_eq]

theorem State.pos_pulseAt (s : State) (p : PosId) : (s.pulseAt p).pos p = (s.pos p).pulse := by
  rw [State.pulseAt, State.pos_congr (State.evaluatePermits_positions _), State.pos_modPos]

theorem State.pos_pulseAt_ne (s : State) {p q : PosId} (h : p ≠ q) : (s.pulseAt p).pos q = s.pos q := by
  rw [State.pulseAt, State.pos_congr (State.evaluatePermits_positions _), State.pos_modPos_ne s _ h]

theorem pos_foldl_pulseAt_of_not_mem {l : List PosId} {p : PosId} (h : p ∉ l) (s : State) :
    (l.foldl State.pulseAt s).pos p = s.pos p := by
  induction l generalizing s with
  | nil => rfl
  | cons q l ih =>
    rw [List.mem_cons, not_or] at h
    rw [List.foldl_cons, ih h.2, s.pos_pulseAt_ne (Ne.symm h.1)]

theorem pos_foldl_pulseAt_of_mem {l : List PosId} (hl : l.Nodup) {p : PosId} (h : p ∈ l) (s : State) :
    (l.foldl State.pulseAt s).pos p = (s.pos p).pulse := by
  induction l generalizing s with
  | nil => exact absurd h List.not_mem_nil
  | cons q l ih =>
    obtain ⟨hq, hl⟩ := List.nodup_cons.1 hl
    rw [List.foldl_cons]
    by_cases e : p = q
    · subst e
      rw [pos_foldl_pulseAt_of_not_mem hq, s.pos_pulseAt]
    · rw [ih hl ((List.mem_cons.1 h).resolve_left e), s.pos_pulseAt_ne (Ne.symm e)]

/-- Each position reached once: the pulses are the positions' own changes, one evaluation each. -/
theorem foldl_pulseAt_eq_setPos {l : List PosId} (hl : l.Nodup) (s : State) (y : PosId → Position)
    (hy : ∀ p ∈ l, y p = (s.pos p).pulse) :
    l.foldl State.pulseAt s = l.foldl (fun t p => (t.setPos p (y p)).evaluatePermits) s := by
  induction l generalizing s with
  | nil => rfl
  | cons p l ih =>
    obtain ⟨hp, hl⟩ := List.nodup_cons.1 hl
    have first : s.pulseAt p = (s.setPos p (y p)).evaluatePermits := by
      rw [hy p List.mem_cons_self, State.pulseAt, State.modPos_eq]
    rw [List.foldl_cons, List.foldl_cons, ← first]
    refine ih hl (s.pulseAt p) fun q hq => ?_
    rw [s.pos_pulseAt_ne fun e : p = q => hp (e ▸ hq), hy q (List.mem_cons_of_mem p hq)]

theorem foldl_pulseAt_current {l : List PosId} (h : l ≠ []) (s : State) :
    (l.foldl State.pulseAt s).permitsCurrent = true := by
  induction l generalizing s with
  | nil => exact absurd rfl h
  | cons p l ih =>
    by_cases e : l = []
    · subst e; exact State.evaluatePermits_current _
    · exact ih e _

theorem Position.useGrace_eq (x : Position) : x.useGrace = { x with
    grace := if (x.verdict = .arriving ∨ x.verdict = .doubtful) ∧ x.grace ≠ 0 then x.grace - 1 else x.grace } := by
  have used : (x.verdict = .arriving ∨ x.verdict = .doubtful) → (if x.grace = 0 then 0 else x.grace - 1) =
      if (x.verdict = .arriving ∨ x.verdict = .doubtful) ∧ x.grace ≠ 0 then x.grace - 1 else x.grace := fun hv => by
    by_cases h : x.grace = 0
    · rw [if_pos h, if_neg (fun e => e.2 h), h]
    · rw [if_neg h, if_pos ⟨hv, h⟩]
  have unused : ¬ (x.verdict = .arriving ∨ x.verdict = .doubtful) →
      (if (x.verdict = .arriving ∨ x.verdict = .doubtful) ∧ x.grace ≠ 0 then x.grace - 1 else x.grace) = x.grace :=
    fun hv => if_neg fun e => hv e.1
  unfold Position.useGrace
  split
  case h_1 h => rw [used (.inl h)]
  case h_2 h => rw [used (.inr h)]
  all_goals
    rename_i h
    rw [unused (by rw [h]; decide)]

theorem Position.countPulse_eq (x : Position) : x.countPulse = { x with
    pendingUse := if x.boundUid ≠ none ∧ x.pendingUse ≠ 0xFFFF#16 then x.pendingUse + 1 else x.pendingUse
    dropped := if x.boundUid ≠ none ∧ x.pendingUse = 0xFFFF#16 then x.dropped + 1 else x.dropped
    lost := if x.boundUid ≠ none then x.lost else x.lost + 1 } := by
  unfold Position.countPulse
  by_cases hb : x.boundUid = none
  · simp only [hb, ne_eq, not_true_eq_false, false_and, if_true, if_false]
  · by_cases hp : x.pendingUse = 0xFFFF#16
    · simp only [hb, hp, ne_eq, not_true_eq_false, not_false_eq_true, and_true, and_false, if_true, if_false]
    · simp only [hb, hp, ne_eq, not_false_eq_true, and_true, and_false, if_true, if_false]

/-- What a pulse does to a position. -/
theorem Position.pulse_eq (x : Position) : x.pulse = { x with
    pendingUse := if x.boundUid ≠ none ∧ x.pendingUse ≠ 0xFFFF#16 then x.pendingUse + 1 else x.pendingUse
    dropped := if x.boundUid ≠ none ∧ x.pendingUse = 0xFFFF#16 then x.dropped + 1 else x.dropped
    lost := if x.boundUid ≠ none then x.lost else x.lost + 1
    grace := if (x.verdict = .arriving ∨ x.verdict = .doubtful) ∧ x.grace ≠ 0 then x.grace - 1 else x.grace
    pulseDirty := true } := by
  rw [Position.pulse, Position.useGrace_eq, Position.countPulse_eq]

theorem State.pos_countPulse (s : State) (k : InputId) (p : PosId) : (s.countPulse k).pos p =
    if (s.pos p).enabled = true ∧ (s.pos p).applied.cycleInput = some k then (s.pos p).pulse else s.pos p := by
  have reached : p ∈ s.reached k ↔ (s.pos p).enabled = true ∧ (s.pos p).applied.cycleInput = some k :=
    mem_inFreeOrder.trans (s.mem_pulsed k p)
  show ((s.reached k).foldl State.pulseAt (s.countInput k)).pos p = _
  split
  case isTrue h => exact pos_foldl_pulseAt_of_mem (s.reached_nodup k) (reached.2 h) _
  case isFalse h => exact pos_foldl_pulseAt_of_not_mem (mt reached.1 h) _

theorem State.countPulse_shape (s : State) (k : InputId) : s.countPulse k = { s with
    positions := (s.countPulse k).positions, levels := (s.countPulse k).levels, pulses := (s.countPulse k).pulses,
    permits := (s.countPulse k).permits, attention := (s.countPulse k).attention, mem := (s.countPulse k).mem,
    blockEdition := (s.countPulse k).blockEdition, blockDirty := (s.countPulse k).blockDirty,
    free := s.free + 1 } := by
  rw [State.countPulse_eq, foldl_pulseAt_eq]
  rfl

theorem exec_cyclePulse_of_low {s : State} {k : InputId} (hp : s.power = .on) (h : s.levels.getLsbD k.val = false) :
    exec (.cyclePulse k) s = .next
      ((((s.countPulse k).choosers (s.pulsed k)).foldl (fun t p => t.choose p) (s.countPulse k)).draw.finish) :=
  congrArg Host.Outcome.next (if_pos ⟨hp, h⟩)

/-- Settles O55: the input counted, then each position it reaches, then the choices. -/
theorem pulsesCounted : Obligations.PulsesCounted := by
  intro s k hp
  refine ⟨fun h => congrArg Host.Outcome.next (if_neg fun e => Bool.false_ne_true (e.2.symm.trans h)), fun h => ?_⟩
  have frame := s.frame_countPulse k
  have levels : (s.countPulse k).levels = setLevel s.levels k true :=
    congrArg State.levels (foldl_pulseAt_eq (s.reached k) (s.countInput k))
  have pulses : (s.countPulse k).pulses = s.pulses.set k.val (s.pulses[k.val] + 1) :=
    congrArg State.pulses (foldl_pulseAt_eq (s.reached k) (s.countInput k))
  have pulsed : ∀ p ∈ s.reached k, (s.countPulse k).pos p = (s.pos p).pulse := fun p hm => by
    rw [s.pos_countPulse, if_pos ((s.mem_pulsed k p).1 (mem_inFreeOrder.1 hm))]
  refine ⟨s.countPulse k, s.countInput k, (s.countPulse k).choosers (s.pulsed k), s.reached k,
    exec_cyclePulse_of_low hp h, s.countPulse_shape k, ?_, s.reached_nodup k,
    fun p => mem_inFreeOrder.trans (s.mem_pulsed k p), ?_, fun hr => ?_, congrArg Frame.holds frame,
    congrArg Frame.groupEnable frame, fun a ha => read_of_hostBytes (congrArg Frame.host frame) ha, fun j => ?_,
    fun j => ?_, fun p => ⟨fun ht => ?_, fun ht => ?_⟩, (s.countPulse k).choosers_nodup (s.pulsed_nodup k), fun p => ?_⟩
  · rw [levels, pulses]; rfl
  · exact congrArg State.draw (foldl_pulseAt_eq_setPos (s.reached_nodup k) (s.countInput k) _ pulsed)
  · exact State.current_of_inputs (State.permitInputs_draw (s := (s.reached k).foldl State.pulseAt (s.countInput k)))
      (foldl_pulseAt_current hr _)
  · rw [levels, setLevel_getLsbD]
    by_cases e : j = k <;> simp [e]
  · simp only [pulses, Vector.getElem_set, Fin.val_inj]
    by_cases e : j = k <;> simp [e, Ne.symm]
  · rw [s.pos_countPulse, if_neg ht]
  · rw [s.pos_countPulse, if_pos ht, Position.pulse_eq]
    exact ⟨rfl, rfl, rfl, rfl, rfl⟩
  · rw [State.mem_choosers, s.mem_pulsed, Position.wantsChoice_iff, and_assoc]

end Sys2Proof.Machine
end
section
/-! SUPPORT. The bits of a call and the reception of a reply (R31 to R36, R45). -/
namespace Sys2Proof.Machine

/-! ### The check of a frame (R33) -/

theorem foldSum_append (bs : List Byte) (b : Byte) : foldSum (bs ++ [b]) =
    if 255 < foldSum bs + b.toNat then foldSum bs + b.toNat - 255 else foldSum bs + b.toNat := by
  rw [foldSum, List.foldl_append]
  rfl

theorem foldSum_le (bs : List Byte) : foldSum bs ≤ 255 := by
  refine List.foldlRecOn bs _ (motive := (· ≤ 255)) (Nat.zero_le _) fun n hn b _ => ?_
  have hb := b.isLt
  split <;> omega

/-- The check byte completes the folded sum. -/
theorem foldSum_checkByte (bs : List Byte) : foldSum (bs ++ [checkByte bs]) = 255 := by
  have h := foldSum_le bs
  have check : (checkByte bs).toNat = 255 - foldSum bs := by
    rw [checkByte, BitVec.toNat_ofNat, Nat.mod_eq_of_lt (by omega)]
  rw [foldSum_append, check, if_neg (by omega)]
  omega

/-! ### Calls (R32, R44, R45) -/

theorem addressByte_eq : ∀ a : Byte, a.toNat ≤ 31 → addressByte a =
    BitVec.ofNat 8 (32 * ((List.range 5).filter (fun i => a.getLsbD i)).length + a.toNat) := by
  decide +kernel

theorem LineCtl.sendingBits_of_call {x : LineCtl} {t : Transaction} (hs : x.state = .calling) (ha : x.activity = .call)
    (ht : x.inFlight = some t) : x.sendingBits = frameBits t.request.call := by
  unfold LineCtl.sendingBits
  rw [if_pos hs, ha, ht]
  rfl

theorem LineCtl.sendingBits_of_quiet {x : LineCtl} {n : Nat} (hs : x.state = .calling) (ha : x.activity = .quiet n) :
    x.sendingBits = frameBits quietCall := by
  unfold LineCtl.sendingBits
  rw [if_pos hs, ha]

theorem LineCtl.sendingBits_of_wake {x : LineCtl} {n : Nat} {failed stuck : Bool} (hs : x.state = .calling)
    (ha : x.activity = .wake n failed stuck) : x.sendingBits = List.replicate 40 false := by
  unfold LineCtl.sendingBits
  rw [if_pos hs, ha]

/-- Settles O45: the bits by what the line is sending. -/
theorem callsAsSent : Obligations.CallsAsSent := by
  refine ⟨fun x t hs ha ht hadr => ⟨?_, foldSum_checkByte _⟩, fun x n hs ha => ?_, fun x n failed stuck hs ha =>
    LineCtl.sendingBits_of_wake hs ha, fun x hs => if_neg hs⟩
  · rw [LineCtl.sendingBits_of_call hs ha ht, LineRequest.call, addressByte_eq _ hadr]
    cases t.request.command <;> rfl
  · rw [LineCtl.sendingBits_of_quiet hs ha, quietCall,
      show frame [addressByte 0, 0x7E] = [0x55, 0x00, 0x7E, 0x81] by decide]
    rfl

/-! ### The reception of a reply (R31, R34, R36) -/

section
variable {c : LineCommand} {t8 : Nat} {got : List Byte}

theorem receive_of_bad (h : rxNeed c got = .bad) (es : List RxEdge) : receive c t8 got es = .error .length := by
  cases es <;> simp only [receive, h]

theorem receive_of_complete_end (h : rxNeed c got = .complete) : receive c t8 got [] = judgeReply got := by
  simp only [receive, h]

theorem receive_of_complete_edge (h : rxNeed c got = .complete) (e : RxEdge) (es : List RxEdge) :
    receive c t8 got (e :: es) = if frameValid got ∧ 8 * e.gap ≤ 3 * t8 then .error .length else judgeReply got := by
  simp only [receive, h]

theorem receive_of_more (h : rxNeed c got = .more) (e : RxEdge) (es : List RxEdge) : receive c t8 got (e :: es) =
    if 3 * t8 < 8 * e.gap then .error .length
    else if e.samples.getLsbD 0 then receive c t8 got es
    else if e.samples.getLsbD 9 = false then .error .check
    else receive c t8 (got ++ [e.samples.extractLsb' 1 8]) es := by
  simp only [receive, h]

end

theorem charEdge_start (g : Nat) (b : Byte) : (charEdge g b).samples.getLsbD 0 = false := by
  revert b
  simp only [charEdge]
  decide +kernel

theorem charEdge_stop (g : Nat) (b : Byte) : (charEdge g b).samples.getLsbD 9 = true := by
  revert b
  simp only [charEdge]
  decide +kernel

theorem charEdge_byte (g : Nat) (b : Byte) : (charEdge g b).samples.extractLsb' 1 8 = b := by
  revert b
  simp only [charEdge]
  decide +kernel

/-- A character within the gap adds its byte. -/
theorem receive_charEdge {c : LineCommand} {t8 : Nat} {got : List Byte} {g : Nat} (h : rxNeed c got = .more)
    (hg : 8 * g ≤ 3 * t8) (b : Byte) (es : List RxEdge) :
    receive c t8 got (charEdge g b :: es) = receive c t8 (got ++ [b]) es := by
  rw [receive_of_more h, show (charEdge g b).gap = g from rfl, if_neg (Nat.not_lt.2 hg),
    if_neg (by rw [charEdge_start]; decide),
    if_neg (by rw [charEdge_stop]; decide), charEdge_byte]

/-- The bytes `bs` laid out as characters within the gap. -/
def laidOut (t8 : Nat) (bs : List Byte) (es : List RxEdge) : Prop :=
  ∃ gaps : List Nat, gaps.length = bs.length ∧ (∀ g ∈ gaps, 8 * g ≤ 3 * t8) ∧ es = List.zipWith charEdge gaps bs

/-- Characters laid out within the gap are taken as long as more bytes are called for. -/
theorem receive_laidOut {c : LineCommand} {t8 : Nat} {bs : List Byte} {got : List Byte} {es : List RxEdge}
    (hl : laidOut t8 bs es) (hm : ∀ i < bs.length, rxNeed c (got ++ bs.take i) = .more) (rest : List RxEdge) :
    receive c t8 got (es ++ rest) = receive c t8 (got ++ bs) rest := by
  obtain ⟨gaps, hlen, hg, rfl⟩ := hl
  induction bs generalizing got gaps with
  | nil => rw [List.zipWith_nil_right, List.append_nil, List.nil_append]
  | cons b bs ih =>
    obtain _ | ⟨g, gaps⟩ := gaps
    · simp at hlen
    · rw [List.zipWith_cons_cons, List.cons_append, receive_charEdge (by simpa using hm 0 (by simp)) (hg g (by simp)),
        ih (fun i hi => ?_) gaps (by simpa using hlen) (fun x hx => hg x (List.mem_cons_of_mem g hx)), List.append_assoc,
        List.singleton_append]
      rw [List.append_assoc, List.singleton_append]
      exact hm (i + 1) (by simpa using hi)

/-! ### How many bytes a reply has (R22, R34) -/

theorem needBytes_of_lt {a b : Nat} (h : a < b) : needBytes a b = .more := if_pos h

theorem needBytes_of_le {a b : Nat} (h : b ≤ a) : needBytes a b = .complete := if_neg (Nat.not_lt.2 h)

theorem blockCountAllowed_of {status n count : Byte} (h0 : status = 0 → n = count)
    (h6 : status = 6 → 1 ≤ n.toNat ∧ n.toNat < count.toNat) (hs : status = 0 ∨ status = 6) :
    blockCountAllowed status n count = true := by
  rcases hs with rfl | rfl
  · exact decide_eq_true (h0 rfl)
  · exact decide_eq_true (h6 rfl)

theorem rxNeed_of_read {first count status : Byte} (hs : status = 0 ∨ status = 6) {n : Byte} (rest : List Byte)
    (hn : blockCountAllowed status n count = true) :
    rxNeed (.readBlocks first count) (status :: n :: rest) = needBytes rest.length (4 * n.toNat + 1) := by
  simp only [rxNeed, hs, hn, if_true]

theorem needBytes_succ (a b : Nat) : needBytes (a + 1) (b + 1) = needBytes a b := by
  simp [needBytes]

/-- Of a reply, with its check byte, the bytes so far call for as many as the data has, and the check byte. -/
theorem rxNeed_of_prefix {c : LineCommand} {status x : Byte} {data rest : List Byte} (h : replyData c status data)
    (hr : rest <+: data ++ [x]) : rxNeed c (status :: rest) = needBytes rest.length (data.length + 1) := by
  cases c with
  | readBlocks first count =>
    unfold replyData at h
    dsimp only at h
    split at h
    case isTrue hs =>
      obtain ⟨n, blocks, rfl, hlen, h0, h6⟩ := h
      cases rest with
      | nil => simp only [rxNeed, hs, if_true, List.length_nil, needBytes, Nat.zero_lt_succ]
      | cons m rest =>
        rw [List.cons_append, List.cons_prefix_cons] at hr
        obtain ⟨rfl, -⟩ := hr
        rw [rxNeed_of_read hs rest (blockCountAllowed_of h0 h6 hs), List.length_cons, List.length_cons, needBytes_succ,
          hlen]
    case isFalse hs =>
      subst h
      simp only [rxNeed, hs, if_false, List.length_nil, Nat.zero_add]
  | writeBlock block w => rw [show data = [] from h]; rfl
  | challenge v => rw [show data.length = if status = 0 then 8 else 0 from h]; simp only [rxNeed]; split <;> rfl
  | addUsage a => rw [show data.length = if status = 0 then 4 else 0 from h]; simp only [rxNeed]; split <;> rfl

section
variable {c : LineCommand} {status : Byte} {data : List Byte} (h : replyData c status data)
include h

theorem rxNeed_take {n : Nat} (hn : n ≤ (status :: data).length) : rxNeed c ((status :: data).take n) = .more := by
  cases n with
  | zero => rfl
  | succ n =>
    rw [List.take_succ_cons, rxNeed_of_prefix (x := 0) h ((List.take_prefix n data).trans (List.prefix_append data _))]
    refine needBytes_of_lt ?_
    rw [List.length_take]
    omega

theorem rxNeed_checked (x : Byte) : rxNeed c ((status :: data) ++ [x]) = .complete := by
  rw [List.cons_append, rxNeed_of_prefix h (List.prefix_refl (data ++ [x]))]
  refine needBytes_of_le ?_
  simp

/-- A reply laid out, whole or in part, is taken byte by byte. -/
theorem receive_reply {t8 : Nat} {n : Nat} {es : List RxEdge} (hn : n ≤ (status :: data).length)
    (hl : laidOut t8 ((status :: data).take n) es) (rest : List RxEdge) :
    receive c t8 [] (es ++ rest) = receive c t8 ((status :: data).take n) rest := by
  rw [receive_laidOut hl, List.nil_append]
  intro i hi
  rw [List.nil_append, List.take_take]
  refine rxNeed_take h ?_
  omega

theorem receive_checked {t8 : Nat} {x : Byte} {es : List RxEdge} (hl : laidOut t8 ((status :: data) ++ [x]) es)
    (rest : List RxEdge) : receive c t8 [] (es ++ rest) = receive c t8 ((status :: data) ++ [x]) rest := by
  rw [receive_laidOut hl, List.nil_append]
  intro i hi
  rw [List.length_append, List.length_singleton] at hi
  rw [List.nil_append, List.take_append_of_le_length (by omega)]
  exact rxNeed_take h (by omega)

end

theorem judgeReply_of_valid {status x : Byte} {data : List Byte} (h : foldSum ((status :: data) ++ [x]) = 255) :
    judgeReply ((status :: data) ++ [x]) = .reply status data := by
  unfold judgeReply frameValid
  rw [if_pos (decide_eq_true h)]
  simp

theorem judgeReply_of_invalid {bytes : List Byte} (h : foldSum bytes ≠ 255) : judgeReply bytes = .error .check := by
  unfold judgeReply frameValid
  rw [if_neg (by simpa using h)]

/-- Settles O47: a laid out reply up to the edge that decides. -/
theorem replyReceived : Obligations.ReplyReceived := by
  intro c t8 status data h
  have valid := foldSum_checkByte (status :: data)
  refine ⟨fun es hl => ?_, fun es check hl hc => ?_, fun es e rest hl hg => ?_, fun es n e rest hn hl => ?_⟩
  · rw [← List.append_nil es, receive_checked h hl, receive_of_complete_end (rxNeed_checked h _),
      judgeReply_of_valid valid]
  · rw [← List.append_nil es, receive_checked h hl, receive_of_complete_end (rxNeed_checked h _),
      judgeReply_of_invalid hc]
  · rw [receive_checked h hl, receive_of_complete_edge (rxNeed_checked h _), if_pos ⟨decide_eq_true valid, hg⟩]
  · rw [receive_reply h hn hl, receive_reply h hn hl, receive_of_more (rxNeed_take h hn)]
    refine ⟨fun hg => if_pos hg, fun hg h0 => ?_, fun hg h0 h9 => ?_, fun first count blocks g k hc hg hk => ?_⟩
    · rw [if_neg (Nat.not_lt.2 hg), if_pos h0]
    · rw [if_neg (Nat.not_lt.2 hg), if_neg (by rw [h0]; decide), if_pos h9]
    · subst hc
      have two : ∀ s : Byte, (s = 0 ∨ s = 6) → blockCountAllowed s blocks count = false →
          receive (.readBlocks first count) t8 [] (charEdge g s :: charEdge k blocks :: rest) = .error .length := by
        intro s hs hb
        rw [receive_charEdge rfl hg, List.nil_append, receive_charEdge (by simp only [rxNeed, hs, if_true]) hk]
        refine receive_of_bad ?_ rest
        simp only [List.cons_append, List.nil_append, rxNeed, hs, hb, if_true, if_false, Bool.false_eq_true]
      refine ⟨fun hb => two 0 (.inl rfl) (decide_eq_false hb), fun hb => two 6 (.inr rfl) (decide_eq_false ?_)⟩
      rintro ⟨low, high⟩
      rcases hb with rfl | hb
      · exact absurd low (by decide)
      · omega

end Sys2Proof.Machine
end
section
/-! SUPPORT. The arithmetic of a measurement (R89 to R96). -/
namespace Sys2Proof.Machine

/-! ### Rounding to integers -/

/-- The rounded integer quotient is the one that the scope's definition names: its magnitude is rounded, its sign kept. -/
theorem roundInt_of_isRoundedInt {n : Int} {d : Nat} {r : Int} (h : isRoundedInt n d r) : roundInt n d = r := by
  obtain ⟨magnitude, sign⟩ := h
  have mag := roundNat_of_isRounded magnitude
  obtain ⟨low, high⟩ := magnitude
  have pos : 0 < d := Nat.pos_of_ne_zero fun e => by subst e; simp at high
  have zero : n = 0 → r = 0 := fun e => by
    subst e
    refine Decidable.byContradiction fun hr => ?_
    have hd : d ≤ r.natAbs * d := Nat.le_mul_of_pos_left d (by omega)
    rw [Nat.mul_assoc] at low
    omega
  unfold roundInt
  rcases Int.lt_trichotomy n 0 with hn | hn | hn
  · have hr : r ≤ 0 := Int.not_lt.1 fun hr => absurd sign (Int.not_le.2 (Int.mul_neg_of_neg_of_pos hn hr))
    rw [if_neg (by omega), show (-n).toNat = n.natAbs by omega, mag]
    omega
  · have hr := zero hn
    rw [if_pos (by omega), show n.toNat = n.natAbs by omega, mag]
    omega
  · have hr : 0 ≤ r := Int.not_lt.1 fun hr => absurd sign (Int.not_le.2 (Int.mul_neg_of_pos_of_neg hn hr))
    rw [if_pos (by omega), show n.toNat = n.natAbs by omega, mag]
    omega

theorem isSaturated_iff (xs : List Word16) :
    isSaturated xs = true ↔ ∃ x ∈ xs, x.toInt = 32767 ∨ x.toInt = -32768 := by
  simp [isSaturated]

theorem netCount_of_isRoundedInt {xs : List Word16} {a : Int} (h : isRoundedInt ((xs.map BitVec.toInt).sum) 16 a)
    (c : CalRecord) : netCount xs c = a - c.offset.toInt := by
  rw [netCount, average, sampleSum, roundInt_of_isRoundedInt h]

theorem resistance_of_isRounded {n : Int} {g : Word32} {m : Nat} (h : isRounded (n.toNat * g.toNat) 65536 m) :
    resistance n g = min 4000000 m := by
  rw [resistance, roundNat_of_isRounded h, clampNat_eq_max_min (by omega), Nat.zero_max]

theorem normalised_of_isRounded {rMeas r : Nat} {d : Int} (h : isRounded (rMeas * 2000000) d.toNat r) :
    normalised rMeas d = min 4000000 r := by
  rw [normalised, roundNat_of_isRounded h, clampNat_eq_max_min (by omega), Nat.zero_max]

theorem expected_of_isRounded {factory : Word32} {w : Int} {e : Nat}
    (h : isRounded (factory.toNat * (1000000 + w).toNat) 1000000 e) : expected factory w = max 1 (min 4000000 e) := by
  rw [expected, roundNat_of_isRounded h, clampNat_eq_max_min (by omega)]

theorem clampTemp_eq (t : Word16) : clampTemp t = BitVec.ofInt 16 (max (-80) (min 500 t.toInt)) := by
  rw [clampTemp, clampInt_eq_max_min (by omega)]

theorem clampTemp_toInt (t : Word16) : (clampTemp t).toInt = max (-80) (min 500 t.toInt) := by
  rw [clampTemp_eq, BitVec.toInt_ofInt]
  exact Int.bmod_eq_of_le (by omega) (by omega)

theorem divisor_clamped (alpha t : Word16) :
    divisor alpha (clampTemp t).toInt = 2000000 + alpha.toNat * (max (-80) (min 500 t.toInt) - 40) := by
  rw [divisor, clampTemp_toInt]

theorem divisor_pos {alpha : Word16} (h : alpha.toNat ≤ 6000) {temp : Int} (ht : -80 ≤ temp) :
    (0 : Int) < 2000000 + alpha.toNat * (temp - 40) := by
  have ha : (0 : Int) ≤ alpha.toNat := by omega
  have low : (alpha.toNat : Int) * (-120) ≤ alpha.toNat * (temp - 40) :=
    Int.mul_le_mul_of_nonneg_left (by omega) ha
  omega

theorem wearTerm_eq (beta : Word16) (counter : Word32) :
    wearTerm beta counter = max (-250000) (min 250000 (beta.toInt * (counter.toNat / 1000 : Nat))) :=
  clampInt_eq_max_min (by omega) _

theorem deviationOf_eq (r20 rExp : Nat) :
    deviationOf r20 rExp = max (-999999) (min 999999 ((((r20 : Int) - rExp) * 1000000).tdiv rExp)) :=
  clampInt_eq_max_min (by omega) _

/-! ### The stages (R96) -/

section
variable {xs : List Word16} {c : CalRecord}

theorem presenceStages_of_saturated (h : isSaturated xs = true) : presenceStages xs c = ⟨true, none, none⟩ := if_pos h

theorem presenceStages_of_low (h : ¬ isSaturated xs = true) (hn : netCount xs c ≤ 0) :
    presenceStages xs c = ⟨false, some (netCount xs c), none⟩ := (if_neg h).trans (if_pos hn)

theorem presenceStages_of_net (h : ¬ isSaturated xs = true) (hn : ¬ netCount xs c ≤ 0) :
    presenceStages xs c = ⟨false, some (netCount xs c), some (resistance (netCount xs c) c.gain)⟩ :=
  (if_neg h).trans (if_neg hn)

variable (t : Word16) (factory counter : Word32) (alpha beta : Word16) (tau : Word32)

theorem signatureStages_of_saturated (h : isSaturated xs = true) :
    signatureStages xs c t factory counter alpha beta tau = ⟨fSignatureRange, none, none, none, none, none⟩ := if_pos h

theorem signatureStages_of_low (h : ¬ isSaturated xs = true) (hn : netCount xs c ≤ 0) :
    signatureStages xs c t factory counter alpha beta tau = ⟨fSignatureRange, some 0, none, none, none, none⟩ :=
  (if_neg h).trans (if_pos hn)

theorem signatureStages_of_net (h : ¬ isSaturated xs = true) (hn : ¬ netCount xs c ≤ 0) :
    signatureStages xs c t factory counter alpha beta tau =
      let rMeas := resistance (netCount xs c) c.gain
      let r20 := normalised rMeas (divisor alpha (clampTemp t).toInt)
      let rExp := expected factory (wearTerm beta counter)
      ⟨if r20 < bandLow rExp tau ∨ bandHigh rExp tau < r20 then fSignature else 0, some (BitVec.ofNat 32 rMeas),
        some (BitVec.ofNat 32 r20), some (BitVec.ofNat 32 rExp), some (BitVec.ofInt 32 (deviationOf r20 rExp)),
        some (clampTemp t)⟩ := (if_neg h).trans (if_neg hn)

end

/-- Settles O53: the stages, each with the rounded value that its rule names. -/
theorem signatureArithmetic : Obligations.SignatureArithmetic := by
  intro xs c t factory counter alpha beta tau a ha
  have net := netCount_of_isRoundedInt ha c
  have full := isSaturated_iff xs
  refine ⟨fun hf => ?_, fun hf hn => ?_, fun m r e hf hn halpha _ => ?_⟩
  · exact ⟨signatureStages_of_saturated _ _ _ _ _ _ (full.2 hf), presenceStages_of_saturated (full.2 hf)⟩
  · rw [← net] at hn
    refine ⟨signatureStages_of_low _ _ _ _ _ _ (mt full.1 hf) hn, ?_⟩
    rw [presenceStages_of_low (mt full.1 hf) hn, net]
  · intro hm rMeas temp d hr r20 w he rExp lo hi deviation
    have pos : ¬ netCount xs c ≤ 0 := by rw [net]; exact Int.not_le.2 hn
    have measured : resistance (netCount xs c) c.gain = rMeas := by rw [net]; exact resistance_of_isRounded hm
    have normal : normalised rMeas (divisor alpha (clampTemp t).toInt) = r20 := by
      rw [divisor_clamped]; exact normalised_of_isRounded hr
    have expect : expected factory (wearTerm beta counter) = rExp := by
      rw [wearTerm_eq]; exact expected_of_isRounded he
    refine ⟨divisor_pos halpha (Int.le_max_left _ _), ?_, ?_⟩
    · rw [presenceStages_of_net (mt full.1 hf) pos, measured, net]
    · show signatureStages xs c t factory counter alpha beta tau = _
      rw [signatureStages_of_net _ _ _ _ _ _ (mt full.1 hf) pos]
      dsimp only
      rw [measured, normal, expect, clampTemp_eq, deviationOf_eq]
      rfl

end Sys2Proof.Machine
end
section
/-! SUPPORT. The measurement unit's events (R66, R71, R77 to R88): how a measurement starts, settles and ends, whom its
outcome goes to, and the calibration waiting list. -/
namespace Sys2Proof.Machine

/-! ### The context of the running cycle -/

section
variable {s : State} {p : PosId} {c : CycleContext} (h : (s.pos p).cycle = some c)
include h

theorem State.context_of_cycle : s.context p = c := by
  rw [State.context, h]
  rfl

theorem State.modContext_of_cycle (f : CycleContext → CycleContext) :
    s.modContext p f = s.setPos p { s.pos p with cycle := some (f c) } := by
  rw [State.modContext, State.modPos_eq, h]
  rfl

/-- The inputs of the screening rules in a running cycle (Table 2). -/
theorem State.screenInputs_of_cycle : s.screenInputs p = {
    deviation := c.deviation.map BitVec.toInt
    r20 := c.r20.map BitVec.toInt
    clock := c.ratio.toNat
    temp := (c.temp.getD (clampTemp (tagTemperature c.blocks))).toInt
    usageThousands := ((tagCounter c.blocks).toNat / 1000 : Nat)
    pending := (s.pos p).pendingUse.toNat
    retries := (c.identifyRetries + c.challengeRetries : Nat)
    classCode := tagClass c.blocks } := by
  rw [State.screenInputs, State.context_of_cycle h]

theorem State.enterScreen_of_none (hf : c.findings ||| screenFindings s.rules.toList (s.screenInputs p) = 0) :
    s.enterScreen p = s.endCycle p .clean 0 .none (limitsOf c.classCopy) := by
  unfold State.enterScreen
  rw [State.context_of_cycle h]
  exact if_pos hf

theorem State.enterScreen_of_some (hf : c.findings ||| screenFindings s.rules.toList (s.screenInputs p) ≠ 0) :
    s.enterScreen p = s.endCycle p .findings (c.findings ||| screenFindings s.rules.toList (s.screenInputs p)) .none
      (limitsOf c.classCopy) := by
  unfold State.enterScreen
  rw [State.context_of_cycle h]
  exact if_neg hf

/-- The position with a signature outcome's values posted and the outcome in the context. -/
theorem State.signatureOutcome_eq (o : SignatureOutcome) : s.signatureOutcome p o =
    (s.setPos p { s.pos p with
      rMeas := o.rMeas.getD (s.pos p).rMeas, r20 := o.r20.getD (s.pos p).r20, rExp := o.rExp.getD (s.pos p).rExp,
      deviation := o.deviation.getD (s.pos p).deviation,
      cycle := some { c with
        findings := c.findings ||| o.findings, r20 := o.r20, deviation := o.deviation, temp := o.temp } }).enterScreen
      p := by
  unfold State.signatureOutcome
  dsimp only
  rw [State.modPos_eq, State.modContext_of_cycle (c := c) (by rw [State.pos_setPos]; exact h), State.pos_setPos,
    State.setPos_setPos]

end

theorem limitsOf_none : limitsOf none = { trip := 1, recover := 0, forgive := 255, latch := 3 } := rfl

theorem PresenceOutcome.present_iff (o : PresenceOutcome) (limit : Nat) : o.present limit = true ↔
    o.saturated = false ∧ (∃ n, o.net = some n ∧ 0 < n) ∧ ∃ r, o.rMeas = some r ∧ r < limit := by
  unfold PresenceOutcome.present
  cases o.net <;> cases o.rMeas <;> simp [and_assoc]

/-! ### The calibration waiting list (R85) -/

theorem State.advanceCalibration_of_calibrating {s : State} (h : s.meas.calibrating = true) :
    s.advanceCalibration = s := if_pos h

theorem State.advanceCalibration_of_not {s : State} (h : ¬ s.meas.calibrating = true) :
    s.advanceCalibration = advanceWaiting s.meas.waiting s := if_neg h

/-- Where the oldest waiting task's channel is in use, it ends IN_USE and the next is looked at. -/
theorem State.advanceCalibration_of_inUse {s : State} {r : MeasRequest} {more : List MeasRequest} {k : SlotId}
    (hc : ¬ s.meas.calibrating = true) (hw : s.meas.waiting = r :: more) (hu : s.channelInUse r.channel = true)
    (hk : r.slot = some k) : s.advanceCalibration =
      (({ s with meas := { s.meas with waiting := more } } : State).completeFree k .inUse).advanceCalibration := by
  have left : advanceWaiting (r :: more) s = advanceWaiting more (s.completeFree k .inUse) := by
    rw [advanceWaiting, if_pos hu, hk]
  have next : (({ s with meas := { s.meas with waiting := more } } : State).completeFree k .inUse).advanceCalibration =
      advanceWaiting more (({ s with meas := { s.meas with waiting := more } } : State).completeFree k .inUse) :=
    State.advanceCalibration_of_not (s := State.completeFree _ k .inUse) hc
  rw [State.advanceCalibration_of_not hc, hw, left, next]
  exact (advanceWaiting_ignores more (s.completeFree k .inUse) more).symm

/-! ### Calibration outcomes (R86, R87) -/

section
variable {kind : CalKind} {ref : Word32} {r : CalRecord} {xs : List Word16} {a : Int} (ha : average xs = a)
include ha

theorem calOutcome_offset_of_out (h : isSaturated xs = true ∨ a < -2048 ∨ 2047 < a) :
    calOutcome .offset ref r xs = (.outOfRange, r) := by
  unfold calOutcome
  rw [ha]
  exact if_pos h

theorem calOutcome_offset_of_in (h : ¬ (isSaturated xs = true ∨ a < -2048 ∨ 2047 < a)) :
    calOutcome .offset ref r xs = (.ok, { r with offset := BitVec.ofInt 16 a }) := by
  unfold calOutcome
  rw [ha]
  exact if_neg h

theorem calOutcome_gain_of_out (h : isSaturated xs = true ∨ a - r.offset.toInt < 1000) :
    calOutcome .gain ref r xs = (.outOfRange, r) := by
  unfold calOutcome
  rw [ha]
  exact if_pos h

theorem calOutcome_gain_of_in (h : ¬ (isSaturated xs = true ∨ a - r.offset.toInt < 1000)) {g : Nat}
    (hg : roundNat (ref.toNat * 65536) (a - r.offset.toInt).toNat = g) : calOutcome .gain ref r xs =
      if g = 0 ∨ 16777215 < g then (.outOfRange, r) else (.ok, { r with gain := BitVec.ofNat 32 g }) := by
  unfold calOutcome
  rw [ha, ← hg]
  exact if_neg h

end

/-! ### The events -/

/-- The state at the end of sampling, before the outcome is handed: counted, nothing in flight. -/
def State.sampled (s : State) (xs : List Word16) : State :=
  (s.modMeas (fun u => u.endSampling (isSaturated xs))).touchBlock

theorem exec_measurementStart_of_idle {s : State} {r : MeasRequest} {rest : List MeasRequest} (hp : s.power = .on)
    (hi : s.meas.state = .idle) (hq : s.meas.queue = r :: rest) : exec .measurementStart s = .next { s with
      meas := { s.meas with
        state := .settling, queue := rest, inFlight := some { request := r, disposition := .live } } } := by
  show execMeasurementStart s = _
  unfold execMeasurementStart
  rw [hq]
  exact congrArg Host.Outcome.next (if_pos ⟨hp, hi⟩)

section
variable {s : State} {f : MeasFlight} (hp : s.power = .on) (hs : s.meas.state = .sampling)
  (hf : s.meas.inFlight = some f) (xs : Vector Word16 16)
include hp hs hf

theorem exec_samplingEnd_of_live (hd : f.disposition = .live) : exec (.samplingEnd xs) s =
    .next ((s.sampled xs.toList).handMeasurement f.request xs.toList).measIdle.finish := by
  show execSamplingEnd xs s = _
  unfold execSamplingEnd
  rw [hf]
  dsimp only
  rw [if_pos ⟨hp, hs⟩, if_pos hd]
  rfl

theorem exec_samplingEnd_of_dead (hd : f.disposition ≠ .live) : exec (.samplingEnd xs) s =
    .next ((s.sampled xs.toList).discardMeasurement f).measIdle.finish := by
  show execSamplingEnd xs s = _
  unfold execSamplingEnd
  rw [hf]
  dsimp only
  rw [if_pos ⟨hp, hs⟩, if_neg hd]
  rfl

end

theorem State.discardMeasurement_of_position {s : State} {f : MeasFlight} {p : PosId}
    (h : f.request.position = some p) : s.discardMeasurement f = s := by
  have slot : f.request.slot = none := by
    obtain ⟨⟨c, kind⟩, d⟩ := f
    cases kind with
    | signature => rfl
    | presence => rfl
    | calibrate => exact absurd h (by simp [MeasRequest.position])
  unfold State.discardMeasurement
  rw [slot]

theorem State.discardMeasurement_of_calibrate {s : State} {f : MeasFlight} {k : SlotId} (h : f.request.slot = some k) :
    s.discardMeasurement f =
      (if f.disposition = .cancelled then s.completeFree k .cancelled else s).advanceCalibration := by
  unfold State.discardMeasurement
  rw [h]

theorem State.temperatureOf_eq (s : State) (p : PosId) (source : TempSource) (tag : Word16) :
    s.temperatureOf p source tag = if source = .tag then tag else s.mem.word (0x0112 + 128 * p.val) := by
  cases source with
  | tag => rfl
  | hostValue =>
    rw [if_neg TempSource.noConfusion, State.temperatureOf, hostTemperature, positionAddr]
    congr 1
    omega

theorem State.handMeasurement_of_signature {s : State} {r : MeasRequest} {p : PosId} {source : TempSource} {tag : Word16}
    {factory counter : Word32} {alpha beta : Word16} {tau : Word32}
    (h : r.kind = .signature p source tag factory counter alpha beta tau) (xs : List Word16) :
    s.handMeasurement r xs = (s.signatureOutcome p (signatureStages xs (s.calOf r.channel)
      (s.temperatureOf p source tag) factory counter alpha beta tau)).choose p := by
  unfold State.handMeasurement
  rw [h]

theorem State.handMeasurement_of_presence {s : State} {r : MeasRequest} {p : PosId} (h : r.kind = .presence p)
    (xs : List Word16) : s.handMeasurement r xs =
      (s.presenceOutcome p (presenceStages xs (s.calOf r.channel))).choose p := by
  unfold State.handMeasurement
  rw [h]

/-- The status of a CALIBRATE and the record afterwards (R85 to R87). -/
def State.calJudged (s : State) (c : ChannelId) (kind : CalKind) (ref : Word32) (xs : List Word16) :
    TaskStatus × CalRecord :=
  if s.channelInUse c then (.inUse, s.calOf c) else calOutcome kind ref (s.calOf c) xs

theorem State.endCalibrate_of_judged {s : State} {c : ChannelId} {kind : CalKind} {ref : Word32} {xs : List Word16}
    {st : TaskStatus} {r : CalRecord} (h : s.calJudged c kind ref xs = (st, r)) (k : SlotId) :
    s.endCalibrate k c kind ref xs = (s.setCal c r).complete k st
      ([BitVec.ofNat 8 c.val, kind.code, flagByte (isSaturated xs), 0] ++ bytes32 (BitVec.ofInt 32 (sampleSum xs)) ++
        bytes16 (BitVec.ofInt 16 (average xs)) ++ bytes16 r.offset ++ bytes32 r.gain) := by
  have judged : (if s.channelInUse c then (TaskStatus.inUse, s.calOf c) else calOutcome kind ref (s.calOf c) xs) =
    (st, r) := h
  unfold State.endCalibrate
  rw [judged]

/-- Settles O52: the stages of the cycle that take an outcome, the waiting list, and the unit's events. -/
theorem measurementSteps : Obligations.MeasurementSteps := by
  refine ⟨fun s p c o hc => ?_, fun s p o => ?_, fun s => ?_, fun s hp => ?_⟩
  · intro x v f limits
    have cycle : (v.pos p).cycle = some { c with
        findings := c.findings ||| o.findings, r20 := o.r20, deviation := o.deviation, temp := o.temp } := by
      rw [State.pos_setPos]
    have found : f = (c.findings ||| o.findings) ||| screenFindings v.rules.toList (v.screenInputs p) := by
      rw [State.screenInputs_of_cycle cycle, State.pos_setPos]; rfl
    have outcome : s.signatureOutcome p o = v.enterScreen p := State.signatureOutcome_eq hc o
    refine ⟨fun h => ?_, fun h => ?_⟩
    · rw [outcome, State.enterScreen_of_none cycle (found.symm.trans h)]
    · rw [outcome, State.enterScreen_of_some cycle (found ▸ h), found]
  · dsimp only
    refine ⟨fun h => ?_, fun h => ?_⟩
    · exact if_pos ((o.present_iff _).2 h)
    · exact if_neg (mt (o.present_iff _).1 h)
  · dsimp only
    rw [← s.meas.calibrating_iff]
    refine ⟨State.advanceCalibration_of_calibrating, State.advanceCalibration_of_none, fun r more hc hw => ?_⟩
    rw [← State.channelInUse_iff]
    exact ⟨fun hu => State.advanceCalibration_of_free hw (Bool.eq_false_iff.2 hc) (Bool.eq_false_iff.2 hu),
      fun k hu hk => State.advanceCalibration_of_inUse hc hw hu hk⟩
  · refine ⟨fun r rest hi hq => exec_measurementStart_of_idle hp hi hq,
      fun hs => congrArg Host.Outcome.next (if_pos ⟨hp, hs⟩), fun xs f hs hf => ?_⟩
    intro full u ends cal
    have live := exec_samplingEnd_of_live hp hs hf xs
    have dead := exec_samplingEnd_of_dead hp hs hf xs
    have sampled : s.sampled xs.toList = u := rfl
    rw [sampled] at live dead
    refine ⟨fun p hd hr => ?_, fun k c kind ref hd hr => ?_, fun k c kind ref hd hr => ?_,
      fun p source tag factory counter alpha beta tau hd hr => ?_, fun p hd hr => ?_, fun k c kind ref a hd hr => ?_⟩
    · show exec (.samplingEnd xs) s = _
      rw [dead (by rw [hd]; decide), State.discardMeasurement_of_position hr]
      rfl
    · show exec (.samplingEnd xs) s = _
      rw [dead (by rw [hd]; decide), State.discardMeasurement_of_calibrate (k := k) (by rw [hr]; rfl), if_pos hd]
      rfl
    · show exec (.samplingEnd xs) s = _
      rw [dead (by rw [hd]; decide), State.discardMeasurement_of_calibrate (k := k) (by rw [hr]; rfl),
        if_neg (by rw [hd]; decide)]
      rfl
    · intro t
      show exec (.samplingEnd xs) s = _
      rw [live hd, State.handMeasurement_of_signature hr, State.temperatureOf_eq]
      rfl
    · show exec (.samplingEnd xs) s = _
      rw [live hd, State.handMeasurement_of_presence hr]
      rfl
    · intro sum ha inUse ended net
      have avg : average xs.toList = a := roundInt_of_isRoundedInt ha
      have saturated : full = isSaturated xs.toList := rfl
      have channel : cal = u.calOf c := by
        show s.meas.cal[f.request.channel.val] = _
        simp only [hr]
        rfl
      have judge : ∀ {st r}, u.calJudged c kind ref xs.toList = (st, r) → ended st r := by
        intro st r hj
        show exec (.samplingEnd xs) s = _
        rw [live hd, hr, show u.handMeasurement { channel := c, kind := .calibrate k kind ref } xs.toList =
          (u.endCalibrate k c kind ref xs.toList).advanceCalibration from rfl, State.endCalibrate_of_judged hj, avg]
        rfl
      have used : u.channelInUse c = true ↔ inUse := State.channelInUse_iff u c
      have free : ¬ inUse → u.calJudged c kind ref xs.toList = calOutcome kind ref cal xs.toList := fun h =>
        (if_neg (mt used.1 h)).trans (by rw [channel])
      refine ⟨fun h => judge ((if_pos (used.2 h)).trans (by rw [channel])), fun h hk ho => judge ?_,
        fun h hk hfull h1 h2 => judge ?_, fun h hk ho => judge ?_, fun g h hk hfull hn hg => ?_⟩
      · rw [free h, hk, calOutcome_offset_of_out avg ho]
      · rw [free h, hk, calOutcome_offset_of_in avg]
        rintro (e | e | e)
        · exact Bool.false_ne_true (hfull.symm.trans e)
        · omega
        · omega
      · rw [free h, hk, calOutcome_gain_of_out avg ho]
      · have gained : u.calJudged c kind ref xs.toList = if g = 0 ∨ 16777215 < g then (.outOfRange, cal)
            else (.ok, { cal with gain := BitVec.ofNat 32 g }) := by
          rw [free h, hk, calOutcome_gain_of_in avg _ (roundNat_of_isRounded hg)]
          rintro (e | e)
          · exact Bool.false_ne_true (hfull.symm.trans e)
          · exact absurd hn (Int.not_le.2 e)
        refine ⟨fun hg => judge (gained.trans (if_pos hg)), fun h1 h2 => judge (gained.trans (if_neg ?_))⟩
        omega

end Sys2Proof.Machine
end
section
/-! SUPPORT. The end of a binding (R13, R110, R120), sightings (R114 to R119) and the retired list (R121 to R123). -/
namespace Sys2Proof.Machine

/-! ### The end of a binding -/

section
variable (s : State) (ks : List SlotId) (st : TaskStatus)

@[simp] theorem State.completeAllFree_positions : (s.completeAllFree ks st).positions = s.positions := by
  rw [State.completeAllFree_eq]

@[simp] theorem State.completeAllFree_identity : (s.completeAllFree ks st).identity = s.identity := by
  rw [State.completeAllFree_eq]

@[simp] theorem State.completeAllFree_retired : (s.completeAllFree ks st).retired = s.retired := by
  rw [State.completeAllFree_eq]

@[simp] theorem State.completeAllFree_meas : (s.completeAllFree ks st).meas = s.meas := by
  rw [State.completeAllFree_eq]

@[simp] theorem State.completeAllFree_permits : (s.completeAllFree ks st).permits = s.permits := by
  rw [State.completeAllFree_eq]

@[simp] theorem State.completeAllFree_line (l : LineId) : (s.completeAllFree ks st).line l = s.line l := by
  rw [State.completeAllFree_eq]; cases l <;> rfl

end

theorem State.setPos_pos (s : State) (p : PosId) : s.setPos p (s.pos p) = s := by
  have same : s.positions.set p.val (s.pos p) = s.positions := Vector.set_getElem_self _
  unfold State.setPos
  rw [same]

theorem State.permitInputs_completeAllFree (s : State) (ks : List SlotId) (st : TaskStatus) :
    (s.completeAllFree ks st).permitInputs = s.permitInputs := by
  rw [State.completeAllFree_eq]; rfl

/-- Only the binding's own record is set free, and its contest ends (R115, R120). -/
def IdentityRecord.freedFrom (p : PosId) (r : IdentityRecord) : IdentityRecord :=
  if r.bound = some p then { r with bound := none, contest := [] } else r

theorem State.dropBinding_eq (s : State) (p : PosId) : s.dropBinding p = { s.setPos p (s.pos p).depart with
    blockDirty := if (s.pos p).boundUid ≠ none then true else s.blockDirty,
    identity := if (s.pos p).boundUid ≠ none then s.identity.map (IdentityRecord.freedFrom p) else s.identity } := by
  unfold State.dropBinding
  by_cases h : (s.pos p).boundUid = none
  · rw [if_pos h, if_neg (not_not_intro h), if_neg (not_not_intro h)]; rfl
  · rw [if_neg h, if_pos h, if_pos h]; rfl

theorem State.endBinding_eq (s : State) (p : PosId) : s.endBinding p =
    (s.dropBinding p).evaluatePermits.completeAllFree (s.pos p).commitWaiting .refused := rfl

section
variable (s : State) (p : PosId)

theorem State.pos_dropBinding : (s.dropBinding p).pos p = (s.pos p).depart := by
  rw [s.dropBinding_eq]; exact s.pos_setPos p _

theorem State.pos_dropBinding_ne {q : PosId} (h : p ≠ q) : (s.dropBinding p).pos q = s.pos q := by
  rw [s.dropBinding_eq]; exact s.pos_setPos_ne _ h

theorem State.endBinding_positions : (s.endBinding p).positions = (s.dropBinding p).positions := by
  rw [s.endBinding_eq, State.completeAllFree_positions, State.evaluatePermits_positions]

theorem State.pos_endBinding : (s.endBinding p).pos p = (s.pos p).depart :=
  (State.pos_congr (s.endBinding_positions p) p).trans (s.pos_dropBinding p)

theorem State.pos_endBinding_ne {q : PosId} (h : p ≠ q) : (s.endBinding p).pos q = s.pos q :=
  (State.pos_congr (s.endBinding_positions p) q).trans (s.pos_dropBinding_ne p h)

theorem State.endBinding_identity : (s.endBinding p).identity = (s.dropBinding p).identity := by
  rw [s.endBinding_eq, State.completeAllFree_identity, State.evaluatePermits_identity]

@[simp] theorem State.endBinding_retired : (s.endBinding p).retired = s.retired := by
  rw [s.endBinding_eq, State.completeAllFree_retired, State.evaluatePermits_retired, s.dropBinding_eq]; rfl

@[simp] theorem State.endBinding_meas : (s.endBinding p).meas = s.meas := by
  rw [s.endBinding_eq, State.completeAllFree_meas, State.evaluatePermits_meas, s.dropBinding_eq]; rfl

@[simp] theorem State.endBinding_line (l : LineId) : (s.endBinding p).line l = s.line l := by
  rw [s.endBinding_eq, State.completeAllFree_line, State.evaluatePermits_line, s.dropBinding_eq]; cases l <;> rfl

theorem State.endBinding_current : (s.endBinding p).permitsCurrent = true :=
  State.current_of_inputs (State.permitInputs_completeAllFree _ _ _) (State.evaluatePermits_current _)

end

theorem without_eq {α : Type} [DecidableEq α] (l : List α) (x : α) : without l x = l.filter (fun y => decide (y ≠ x)) :=
  rfl

theorem State.leaveContests_none (s : State) (p : PosId) : s.leaveContests p none = { s with
    identity := s.identity.map (fun r => { r with contest := r.contest.filter (fun q => decide (q ≠ p)) }) } := rfl

/-- Settles O26: the position's and the record's part, then the evaluation, then the tasks that wait. -/
theorem bindingEnds : Obligations.BindingEnds := by
  intro s p t bound y given
  have dropped : s.dropBinding p = given := s.dropBinding_eq p
  have frame : t.frame = s.frame := s.frame_endBinding p
  have ended : t = given.evaluatePermits.completeAllFree (s.pos p).commitWaiting .refused := by
    rw [← dropped]; rfl
  refine ⟨ended, s.pos_endBinding p, fun q h => s.pos_endBinding_ne p (Ne.symm h), ?_, frame,
    s.endBinding_line p .A, s.endBinding_line p .B, s.endBinding_meas p, s.endBinding_retired p,
    s.endBinding_current p, fun h => ?_, rfl⟩
  · rw [← dropped]; exact s.endBinding_identity p
  · rw [h] at ended
    have same : t = given.evaluatePermits := ended
    exact ⟨by rw [same, State.evaluatePermits_slots]; rfl, same⟩

/-! ### Sightings -/

theorem evictFirst_of_split {before after : List IdentityRecord} {v : IdentityRecord} (hv : v.bound = none)
    (hb : ∀ r ∈ before, r.bound ≠ none) : evictFirst (before ++ v :: after) = before ++ after := by
  unfold evictFirst
  rw [List.eraseP_append_right _ (by simpa using hb), List.eraseP_cons_of_pos (by simpa using hv)]

theorem State.record_none {s : State} {u : Word64} (h : s.record u = none) : ∀ r ∈ s.identity, r.uid ≠ u := by
  simpa [State.record] using h

theorem State.makeRoom_of_lt {s : State} (h : s.identity.length < 48) : s.makeRoom = s := if_neg (Nat.not_le.2 h)

theorem State.makeRoom_of_full {s : State} (h : 48 ≤ s.identity.length) : s.makeRoom =
    { s with identity := evictFirst s.identity, evictions := satInc s.evictions } := if_pos h

/-- A new record of a UID that has none comes after all the others. -/
theorem filter_of_absent {l : List IdentityRecord} {u : Word64} (h : ∀ r ∈ l, r.uid ≠ u) :
    l.filter (fun r => decide (r.uid ≠ u)) = l := List.filter_eq_self.2 fun r hr => decide_eq_true (h r hr)

theorem State.record_uid {s : State} {u : Word64} {r : IdentityRecord} (h : s.record u = some r) : r.uid = u := by
  simpa using List.find?_some h

section
variable {s : State} {q : PosId} {u : Word64} {cls : Word16} {c : Word32}

theorem State.sight_of_none (h : s.record u = none) : s.sight q u cls c =
    ((s.makeRoom.placeRecordLast
      { uid := u, classCode := cls, bound := some q, known := c, rejects := 0, contest := [] }).touchBlock).setUid q
      (.bound u) := by
  unfold State.sight
  rw [h]

theorem State.sight_of_unbound {r : IdentityRecord} (h : s.record u = some r) (hb : r.bound = none) :
    s.sight q u cls c =
      ((s.placeRecordLast { r with bound := some q, classCode := cls }).touchBlock).setUid q (.bound u) := by
  unfold State.sight
  rw [h]
  dsimp only
  rw [hb]

theorem State.sight_of_own {r : IdentityRecord} (h : s.record u = some r) (hb : r.bound = some q) :
    s.sight q u cls c = (s.placeRecordLast { r with classCode := cls }).setUid q (.bound u) := by
  unfold State.sight
  rw [h]
  dsimp only
  rw [hb]
  exact if_pos rfl

theorem State.sight_of_other {r : IdentityRecord} {p : PosId} (h : s.record u = some r) (hb : r.bound = some p)
    (hp : p ≠ q) : s.sight q u cls c =
      (s.placeRecordLast { r with contest := enqueueNew r.contest q }).setUid q (.read u) := by
  unfold State.sight
  rw [h]
  dsimp only
  rw [hb]
  exact if_neg hp

end

/-! ### The retired list -/

theorem State.isProtected_iff (s : State) (u : Word64) :
    s.isProtected u = true ↔ ∃ p, (s.pos p).verdict = .barred ∧ (s.pos p).boundUid = some u := by
  rw [State.isProtected, State.any_positions_iff]
  simp

theorem State.retire_of_mem {s : State} {u : Word64} (h : u ∈ s.retired) : s.retire u = s := if_pos h

theorem State.retire_of_room {s : State} {u : Word64} (h : u ∉ s.retired) (hl : s.retired.length < 128) :
    s.retire u = { s with retired := s.retired ++ [u] } := (if_neg h).trans (if_neg (Nat.not_le.2 hl))

/-- The oldest unprotected entry makes room (R123). -/
theorem State.retire_of_full {s : State} {u v : Word64} {before after : List Word64} (h : u ∉ s.retired)
    (hl : 128 ≤ s.retired.length) (hs : s.retired = before ++ v :: after) (hv : ¬ s.isProtected v = true)
    (hb : ∀ w ∈ before, s.isProtected w = true) : s.retire u =
      { s with retired := before ++ after ++ [u], retiredDropped := satInc s.retiredDropped } := by
  have erased : s.retired.eraseP (fun w => !s.isProtected w) = before ++ after := by
    rw [hs, List.eraseP_append_right _ (by simpa using hb), List.eraseP_cons_of_pos (by simpa using hv)]
  rw [State.retire, if_neg h, if_pos hl, erased]

/-- Settles O56: a sighting by what the table holds, an appending by what the list holds. -/
theorem sightingsAndRetirements : Obligations.SightingsAndRetirements := by
  refine ⟨fun s q u cls c => ?_, fun s u => ?_⟩
  · intro t x others fresh placed
    refine ⟨fun h hl => ?_, fun before v after h hl hs hv hb => ?_, fun r h => ⟨fun hb => ?_, fun hb => ?_, fun p hb hp => ?_⟩⟩
    · show s.sight q u cls c = _
      rw [State.sight_of_none h, State.makeRoom_of_lt hl, State.placeRecordLast, filter_of_absent (State.record_none h)]
      rfl
    · show s.sight q u cls c = _
      have rest : ∀ r ∈ before ++ after, r.uid ≠ u := fun r hr => State.record_none h r (by
        rw [hs]
        exact (List.mem_append.1 hr).elim (List.mem_append_left _) fun h => List.mem_append_right _ (List.mem_cons_of_mem v h))
      rw [State.sight_of_none h, State.makeRoom_of_full hl, hs, evictFirst_of_split hv hb, State.placeRecordLast,
        filter_of_absent rest]
      rfl
    · show s.sight q u cls c = _
      rw [State.sight_of_unbound h hb, State.placeRecordLast, State.record_uid h]
      rfl
    · show s.sight q u cls c = _
      rw [State.sight_of_own h hb, State.placeRecordLast, State.record_uid h]
      rfl
    · show s.sight q u cls c = _
      rw [State.sight_of_other h hb hp, State.placeRecordLast, State.record_uid h]
      rfl
  · intro guarded
    have shielded : ∀ v, s.isProtected v = true ↔ guarded v := s.isProtected_iff
    exact ⟨State.retire_of_mem, State.retire_of_room, fun before v after h hl hs hv hb =>
      State.retire_of_full h hl hs (mt (shielded v).1 hv) fun w hw => (shielded w).2 (hb w hw)⟩

end Sys2Proof.Machine
end
section
/-! SUPPORT. Applying a result (R131 to R143): the case of R131 that fits, and what each case moves. -/
namespace Sys2Proof.Machine

/-! ### Records -/

section
variable {s : State} {u : Word64} {r : IdentityRecord} {f : IdentityRecord → IdentityRecord}

theorem State.record_modRecord (h : s.record u = some r) (hf : ∀ a : IdentityRecord, (f a).uid = a.uid) :
    (s.modRecord u f).record u = some (f r) := by
  have uids : ∀ a : IdentityRecord, (if a.uid = u then f a else a).uid = a.uid := fun a => by split <;> simp [hf]
  have hu := State.record_uid h
  unfold State.record State.modRecord at *
  rw [List.find?_map, show ((fun a : IdentityRecord => decide (a.uid = u)) ∘ fun a => if a.uid = u then f a else a) =
    fun a => decide (a.uid = u) from funext fun a => by simp only [Function.comp, uids], h, Option.map_some, if_pos hu]

@[simp] theorem State.modRecord_positions : (s.modRecord u f).positions = s.positions := rfl

@[simp] theorem State.modRecord_pos (p : PosId) : (s.modRecord u f).pos p = s.pos p := rfl

end

theorem State.retire_eq (s : State) (u : Word64) : s.retire u = { s with
    retired := (s.retire u).retired, retiredDropped := (s.retire u).retiredDropped } := by
  unfold State.retire
  (repeat' split) <;> rfl

@[simp] theorem State.retire_pos (s : State) (u : Word64) (p : PosId) : (s.retire u).pos p = s.pos p := by
  rw [s.retire_eq]; rfl

@[simp] theorem State.retire_positions (s : State) (u : Word64) : (s.retire u).positions = s.positions := by
  rw [s.retire_eq]

@[simp] theorem State.retire_identity (s : State) (u : Word64) : (s.retire u).identity = s.identity := by
  rw [s.retire_eq]

/-- After a handover the UID is on the list (R122). -/
theorem State.mem_retire (s : State) (u : Word64) : u ∈ (s.retire u).retired := by
  unfold State.retire
  split
  case isTrue h => exact h
  case isFalse => split <;> exact List.mem_append_right _ (List.mem_singleton_self u)

/-! ### Rejecting and barring (R132, R134, R135) -/

theorem State.bar_of_bound {s : State} {p : PosId} {u : Word64} (h : (s.pos p).boundUid = some u) :
    s.bar p = (s.setPos p ((s.pos p).settle .barred)).retire u := by
  unfold State.bar
  rw [h]
  rfl

theorem State.bar_of_unbound {s : State} {p : PosId} (h : (s.pos p).boundUid = none) :
    s.bar p = s.setPos p ((s.pos p).settle .barred) := by
  unfold State.bar
  rw [h]
  rfl

section
variable (s : State) (p : PosId)

theorem State.pos_bar : (s.bar p).pos p = (s.pos p).settle .barred := by
  cases h : (s.pos p).boundUid with
  | none => rw [State.bar_of_unbound h, State.pos_setPos]
  | some u => rw [State.bar_of_bound h, State.retire_pos, State.pos_setPos]

theorem State.pos_bar_ne {q : PosId} (hq : p ≠ q) : (s.bar p).pos q = s.pos q := by
  cases h : (s.pos p).boundUid with
  | none => rw [State.bar_of_unbound h, State.pos_setPos_ne s _ hq]
  | some u => rw [State.bar_of_bound h, State.retire_pos, State.pos_setPos_ne s _ hq]

theorem State.bar_identity : (s.bar p).identity = s.identity := by
  cases h : (s.pos p).boundUid with
  | none => rw [State.bar_of_unbound h]; rfl
  | some u => rw [State.bar_of_bound h, State.retire_identity]; rfl

theorem State.mem_bar_retired {v : Word64} (h : (s.pos p).boundUid = some v) : v ∈ (s.bar p).retired := by
  rw [State.bar_of_bound h]
  exact State.mem_retire _ v

end

section
variable {s : State} {p : PosId} {r : Result} {u : Word64} {a : IdentityRecord}

theorem State.countReject_of_none (h : r.concerned = none) : s.countReject p r = s := by
  unfold State.countReject
  rw [h]

/-- The reject count of the record concerned, raised (R132). -/
def State.rejectRaised (s : State) (u : Word64) : State :=
  s.modRecord u (fun x => { x with rejects := min 15 (x.rejects + 1) })

theorem State.record_rejectRaised (h : s.record u = some a) :
    (s.rejectRaised u).record u = some { a with rejects := min 15 (a.rejects + 1) } :=
  State.record_modRecord h fun _ => rfl

theorem State.countReject_of_some (h : r.concerned = some u) (ha : s.record u = some a) : s.countReject p r =
    if r.limits.latch ≤ min 15 (a.rejects + 1) then (s.rejectRaised u).bar p else s.rejectRaised u := by
  have raised : (s.modRecord u (fun x => { x with rejects := min 15 (x.rejects + 1) })).record u = _ :=
    State.record_rejectRaised ha
  unfold State.countReject
  rw [h]
  dsimp only
  rw [raised]
  rfl

theorem State.countReject_record (h : r.concerned = some u) (ha : s.record u = some a) :
    (s.countReject p r).record u = some { a with rejects := min 15 (a.rejects + 1) } := by
  rw [State.countReject_of_some h ha]
  split
  · rw [State.record, State.bar_identity]; exact State.record_rejectRaised ha
  · exact State.record_rejectRaised ha

end

theorem State.countReject_pos_ne (s : State) {p q : PosId} (hq : p ≠ q) (r : Result) :
    (s.countReject p r).pos q = s.pos q := by
  unfold State.countReject
  split
  · rfl
  · dsimp only
    split
    · rw [State.pos_bar_ne _ p hq]; rfl
    · rfl

/-- The position after a count of rejects: as it was, or barred. -/
theorem State.countReject_pos (s : State) (p : PosId) (r : Result) :
    (s.countReject p r).pos p = s.pos p ∨ (s.countReject p r).pos p = (s.pos p).settle .barred := by
  unfold State.countReject
  split
  · exact .inl rfl
  · dsimp only
    split
    · rw [State.pos_bar]; exact .inr rfl
    · exact .inl rfl

/-! ### The case of R131 -/

/-- Findings and reason as every result records them. -/
def State.resultRecorded (s : State) (p : PosId) (r : Result) : State :=
  s.setPos p { s.pos p with findings := r.findings, reason := r.reason }

theorem hasAny_iff (f m : Word16) : hasAny f m = true ↔ f &&& m ≠ 0 := decide_eq_true_iff

/-- RETIRED is one of the immediate findings. -/
theorem hasAny_immediate_of_retired {f : Word16} (h : hasAny f fRetired = true) : hasAny f immediateMask = true := by
  rw [hasAny_iff] at h ⊢
  intro e
  refine h ?_
  rw [show fRetired = immediateMask &&& fRetired by decide, ← BitVec.and_assoc, e]
  exact BitVec.zero_and

section
variable {s : State} {p : PosId} {r : Result}

theorem State.applyResult_of_barred (h : (s.pos p).verdict = .barred) : s.applyResult p r = s.resultRecorded p r :=
  if_pos h

variable (hb : (s.pos p).verdict ≠ .barred)
include hb

theorem State.applyResult_of_retired (h : hasAny r.findings fRetired = true ∧ r.concerned ≠ none) :
    s.applyResult p r = (s.resultRecorded p r).bar p := (if_neg hb).trans (if_pos h)

theorem State.applyResult_of_immediate (h : ¬ (hasAny r.findings fRetired = true ∧ r.concerned ≠ none))
    (hi : hasAny r.findings immediateMask = true) : s.applyResult p r = (s.resultRecorded p r).reject p r :=
  ((if_neg hb).trans (if_neg h)).trans (if_pos hi)

theorem State.applyResult_of_silent (h : r.findings = 0x0800) : s.applyResult p r = s.setPos p { s.pos p with
    findings := r.findings, reason := r.reason, verdict := .doubtful, doubt := satInc (s.pos p).doubt, clean := 0,
    grace := 0 } := by
  have none : ∀ m, (0x0800 : Word16) &&& m = 0 → hasAny r.findings m = false := fun m e => by
    rw [h]; exact decide_eq_false (not_not_intro e)
  have silent : s.applyResult p r = (s.resultRecorded p r).modPos p (fun x =>
      { x with verdict := .doubtful, doubt := satInc x.doubt, clean := 0, grace := 0 }) :=
    (((if_neg hb).trans (if_neg fun e => Bool.false_ne_true ((none fRetired (by decide)).symm.trans e.1))).trans
      (if_neg fun e => Bool.false_ne_true ((none immediateMask (by decide)).symm.trans e))).trans (if_pos h)
  rw [silent, State.resultRecorded, State.modPos_setPos]

theorem State.applyResult_of_persistent (hi : ¬ hasAny r.findings immediateMask = true) (h0 : r.findings ≠ 0)
    (hs : r.findings ≠ 0x0800) : s.applyResult p r = (s.resultRecorded p r).doubtResult p r :=
  ((((if_neg hb).trans (if_neg fun e => hi (hasAny_immediate_of_retired e.1))).trans (if_neg hi)).trans
    (if_neg hs)).trans (if_pos h0)

/-- Without findings the kind of the result decides. -/
theorem State.applyResult_of_clean (h : r.findings = 0) (hk : r.kind = .clean) :
    s.applyResult p r = (s.resultRecorded p r).cleanResult p r := by
  unfold State.applyResult
  simp only [hb, h, hk, hasAny_zero, Bool.false_eq_true, false_and, if_false, ne_eq, not_true_eq_false,
    show ¬ (0 : Word16) = fSilent by decide, State.modPos_eq, State.resultRecorded]

theorem State.applyResult_of_absent (h : r.findings = 0) (hk : r.kind = .absent) : s.applyResult p r =
    s.setPos p ({ s.pos p with findings := r.findings, reason := r.reason }.settle .vacant) := by
  unfold State.applyResult
  simp only [hb, h, hk, hasAny_zero, Bool.false_eq_true, false_and, if_false, ne_eq, not_true_eq_false,
    show ¬ (0 : Word16) = fSilent by decide, State.modPos_eq, State.pos_setPos, State.setPos_setPos]

theorem State.applyResult_of_inconclusive (h : r.findings = 0) (hk : r.kind = .inconclusive) :
    s.applyResult p r = s.resultRecorded p r := by
  unfold State.applyResult
  simp only [hb, h, hk, hasAny_zero, Bool.false_eq_true, false_and, if_false, ne_eq, not_true_eq_false,
    show ¬ (0 : Word16) = fSilent by decide, State.modPos_eq, State.resultRecorded]

end

/-! ### Each case by what it moves -/

section
variable {s : State} {p : PosId} {r : Result}

/-- Rejecting: both streaks and grace 0, REJECTED, then the count (R134). -/
theorem State.reject_resultRecorded : (s.resultRecorded p r).reject p r =
    (s.setPos p ({ s.pos p with findings := r.findings, reason := r.reason }.settle .rejected)).countReject p r := by
  rw [State.reject, State.resultRecorded, State.modPos_setPos]

/-- The states in which doubt makes DOUBTFUL (R136). -/
def Verdict.judged (v : Verdict) : Prop := v = .arriving ∨ v = .cleared ∨ v = .expired ∨ v = .doubtful

theorem State.doubtResult_of_judged (h : (s.pos p).verdict.judged) : (s.resultRecorded p r).doubtResult p r =
    if r.limits.trip ≤ (satInc (s.pos p).doubt).toNat then
      (s.setPos p ({ s.pos p with findings := r.findings, reason := r.reason }.settle .rejected)).countReject p r
    else s.setPos p { s.pos p with
      findings := r.findings, reason := r.reason, verdict := .doubtful, doubt := satInc (s.pos p).doubt,
      clean := 0 } := by
  unfold State.doubtResult State.reject State.resultRecorded
  simp only [State.pos_setPos, State.modPos_setPos]
  rcases h with h | h | h | h <;> rw [h] <;> rfl

theorem State.doubtResult_of_rejected (h : (s.pos p).verdict = .rejected) : (s.resultRecorded p r).doubtResult p r =
    s.setPos p { s.pos p with
      findings := r.findings, reason := r.reason, doubt := satInc (s.pos p).doubt, clean := 0 } := by
  unfold State.doubtResult State.resultRecorded
  simp only [State.pos_setPos, State.modPos_setPos, h]

/-- The position with a clean result counted. -/
def Position.cleanCounted (x : Position) (r : Result) : Position :=
  { x with findings := r.findings, reason := r.reason, clean := satInc x.clean, doubt := 0 }

theorem State.cleanResult_of_open (h : (s.pos p).verdict = .arriving ∨ (s.pos p).verdict = .doubtful) :
    (s.resultRecorded p r).cleanResult p r = s.setPos p ((s.pos p).cleanCounted r).clear := by
  unfold State.cleanResult State.resultRecorded Position.cleanCounted
  simp only [State.pos_setPos, State.setPos_setPos]
  rcases h with h | h <;> rw [h] <;> exact State.modPos_setPos _ _ _ _

theorem State.cleanResult_of_rejected (h : (s.pos p).verdict = .rejected) : (s.resultRecorded p r).cleanResult p r =
    if 0 < r.limits.recover ∧ r.limits.recover ≤ (satInc (s.pos p).clean).toNat then
      s.setPos p ((s.pos p).cleanCounted r).clear
    else s.setPos p ((s.pos p).cleanCounted r) := by
  unfold State.cleanResult State.resultRecorded Position.cleanCounted
  simp only [State.pos_setPos, State.setPos_setPos, State.modPos_setPos]
  rw [h]

/-- A clean streak that rose forgives a reject of the record concerned (R140). -/
def State.forgiven (s : State) (p : PosId) (r : Result) : State :=
  (s.setPos p ((s.pos p).cleanCounted r)).forgive p (s.pos p).clean r

theorem State.cleanResult_of_cleared (h : (s.pos p).verdict = .cleared) : (s.resultRecorded p r).cleanResult p r =
    (s.forgiven p r).modPos p (fun y => if y.wear then { y with verdict := .expired } else y) := by
  unfold State.cleanResult State.forgiven State.resultRecorded Position.cleanCounted
  simp only [State.pos_setPos, State.setPos_setPos]
  rw [h]

theorem State.cleanResult_of_expired (h : (s.pos p).verdict = .expired) : (s.resultRecorded p r).cleanResult p r =
    (s.forgiven p r).modPos p
      (fun y => if y.wear then y else { y with verdict := .cleared, grace := y.refill }) := by
  unfold State.cleanResult State.forgiven State.resultRecorded Position.cleanCounted
  simp only [State.pos_setPos, State.setPos_setPos]
  rw [h]

theorem State.forgiven_eq : s.forgiven p r = { s.setPos p ((s.pos p).cleanCounted r) with
    identity := (s.forgiven p r).identity } := by
  unfold State.forgiven State.forgive
  split
  · rfl
  · split <;> rfl

theorem State.pos_forgiven : (s.forgiven p r).pos p = (s.pos p).cleanCounted r := by
  rw [State.forgiven_eq]
  exact State.pos_setPos s p _

theorem State.forgiven_identity_of_due {u : Word64} (h : r.concerned = some u)
    (hc : satInc (s.pos p).clean ≠ (s.pos p).clean) (hf : (satInc (s.pos p).clean).toNat % r.limits.forgive = 0) :
    (s.forgiven p r).identity = s.identity.map (fun (a : IdentityRecord) =>
      if a.uid = u then { a with rejects := a.rejects - 1 } else a) := by
  unfold State.forgiven State.forgive
  rw [h]
  simp only [State.pos_setPos]
  rw [if_pos ⟨hc, hf⟩]
  rfl

theorem State.forgiven_identity_of_not (h : r.concerned = none ∨ satInc (s.pos p).clean = (s.pos p).clean ∨
    (satInc (s.pos p).clean).toNat % r.limits.forgive ≠ 0) : (s.forgiven p r).identity = s.identity := by
  unfold State.forgiven State.forgive
  split
  case h_1 => rfl
  case h_2 u hu =>
    simp only [State.pos_setPos]
    rw [if_neg]
    · rfl
    · rintro ⟨h1, h2⟩
      rcases h with e | e | e
      · exact absurd (hu.symm.trans e) (by simp)
      · exact h1 e
      · exact e h2

end

theorem State.applyResult_pos_ne (s : State) {p q : PosId} (r : Result) (h : p ≠ q) :
    (s.applyResult p r).pos q = s.pos q := by
  have mod : ∀ (v : State) (f : Position → Position), (v.modPos p f).pos q = v.pos q := fun v f =>
    v.pos_modPos_ne f h
  have reject : ∀ v : State, (v.reject p r).pos q = v.pos q := fun v => by
    rw [State.reject, State.countReject_pos_ne _ h, mod]
  have doubt : ∀ v : State, (v.doubtResult p r).pos q = v.pos q := fun v => by
    unfold State.doubtResult
    dsimp only
    split
    case h_1 | h_2 | h_3 | h_4 =>
      split
      · rw [reject, mod, mod]
      · rw [mod, mod]
    all_goals rw [mod]
  have forgive : ∀ (v : State) (b : Word16), (v.forgive p b r).pos q = v.pos q := fun v b => by
    unfold State.forgive
    split
    · rfl
    · split <;> rfl
  have clean : ∀ v : State, (v.cleanResult p r).pos q = v.pos q := fun v => by
    unfold State.cleanResult
    dsimp only
    split
    case h_3 =>
      split
      · rw [mod, v.pos_setPos_ne _ h]
      · rw [v.pos_setPos_ne _ h]
    case h_1 | h_2 => rw [mod, v.pos_setPos_ne _ h]
    case h_4 | h_5 => rw [mod, forgive, v.pos_setPos_ne _ h]
    all_goals rfl
  unfold State.applyResult
  dsimp only
  (repeat' split)
  · rw [mod]
  · rw [State.pos_bar_ne _ p h, mod]
  · rw [reject, mod]
  · rw [mod, mod]
  · rw [doubt, mod]
  · rw [clean, mod]
  · rw [mod, mod]
  · rw [mod]
  · rw [mod]

/-- Settles O57: each case of R131 in its order. -/
theorem verdictApplied : Obligations.VerdictApplied := by
  intro s p r x t low immediate retired rejected doubt clean judged refill cleared
  have retiredIff : hasAny r.findings fRetired = true ↔ retired := hasAny_iff _ _
  have immediateIff : hasAny r.findings immediateMask = true ↔ immediate := hasAny_iff _ _
  have reject : t = (s.setPos p (x.settle .rejected)).countReject p r → rejected := by
    intro e
    refine ⟨fun hn => e.trans (State.countReject_of_none hn), fun u rec hu hrec => ?_⟩
    intro n
    have count := State.countReject_of_some (s := s.setPos p (x.settle .rejected)) (p := p) hu hrec
    refine ⟨e ▸ State.countReject_record hu hrec, fun hn => ?_, fun hn => ⟨?_, fun v hv => ?_⟩⟩
    · rw [e, count, if_neg (Nat.not_le.2 hn)]
      exact ⟨State.pos_setPos s p _, rfl⟩
    · rw [e, count, if_pos hn, State.pos_bar, State.rejectRaised, State.modRecord_pos, State.pos_setPos]
      rfl
    · rw [e, count, if_pos hn]
      refine State.mem_bar_retired _ p ?_
      rw [State.rejectRaised, State.modRecord_pos, State.pos_setPos]
      exact hv
  have clear : ((s.pos p).cleanCounted r).clear = cleared { x with clean := clean, doubt := 0 } := by
    show ((s.pos p).cleanCounted r).clear = if x.wear = true then _ else _
    unfold Position.clear
    rfl
  have persistent : x.verdict ≠ .barred → ¬ immediate → r.findings ≠ 0 → r.findings ≠ 0x0800 →
      t = (s.resultRecorded p r).doubtResult p r := fun hb hi h0 hs =>
    State.applyResult_of_persistent hb (mt immediateIff.1 hi) h0 hs
  refine ⟨fun q hq => s.applyResult_pos_ne r (Ne.symm hq), State.applyResult_of_barred, fun hb => ⟨fun u v hr hu hv => ?_,
    fun hi hn => ?_, State.applyResult_of_silent hb, fun hi h0 hs => ⟨fun hj hd => ?_, fun hj hd => ?_, fun hj => ?_⟩,
    fun h0 hk => ⟨fun hv => ?_, fun hv hn => ?_, fun hv h1 h2 => ?_, fun hv => ?_⟩,
    State.applyResult_of_inconclusive hb, State.applyResult_of_absent hb⟩⟩
  · have bar : t = (s.resultRecorded p r).bar p :=
      State.applyResult_of_retired hb ⟨retiredIff.2 hr, by rw [hu]; exact Option.some_ne_none u⟩
    have held : ((s.resultRecorded p r).pos p).boundUid = some v := by
      rw [State.resultRecorded, State.pos_setPos]; exact hv
    refine ⟨?_, by rw [bar, State.bar_identity]; rfl⟩
    rw [bar, State.bar_of_bound held, State.resultRecorded, State.pos_setPos, State.setPos_setPos]
    rfl
  · exact reject ((State.applyResult_of_immediate hb (fun e => hn ⟨retiredIff.1 e.1, e.2⟩) (immediateIff.2 hi)).trans
      State.reject_resultRecorded)
  · exact (persistent hb hi h0 hs).trans ((State.doubtResult_of_judged hj).trans (if_neg (Nat.not_le.2 hd)))
  · exact reject ((persistent hb hi h0 hs).trans ((State.doubtResult_of_judged hj).trans (if_pos hd)))
  · exact (persistent hb hi h0 hs).trans (State.doubtResult_of_rejected hj)
  · exact (State.applyResult_of_clean hb h0 hk).trans ((State.cleanResult_of_open hv).trans (by rw [clear]))
  · refine (State.applyResult_of_clean hb h0 hk).trans ((State.cleanResult_of_rejected hv).trans (if_neg ?_))
    rintro ⟨h1, h2⟩
    exact hn.elim (Nat.ne_of_gt h1) (Nat.not_lt.2 h2)
  · exact (State.applyResult_of_clean hb h0 hk).trans
      ((State.cleanResult_of_rejected hv).trans ((if_pos ⟨h1, h2⟩).trans (by rw [clear])))
  · obtain ⟨g, e, hg⟩ : ∃ g : Position → Position, t = (s.forgiven p r).modPos p g ∧
        g ((s.pos p).cleanCounted r) = if x.wear = true then { (s.pos p).cleanCounted r with verdict := .expired }
          else if x.verdict = .cleared then (s.pos p).cleanCounted r
          else { (s.pos p).cleanCounted r with verdict := .cleared, grace := refill } := by
      rcases hv with hv | hv
      · refine ⟨_, (State.applyResult_of_clean hb h0 hk).trans (State.cleanResult_of_cleared hv), ?_⟩
        rw [if_pos hv]
        rfl
      · refine ⟨_, (State.applyResult_of_clean hb h0 hk).trans (State.cleanResult_of_expired hv), ?_⟩
        have other : ¬ x.verdict = .cleared := by rw [hv]; decide
        have same : { (s.pos p).cleanCounted r with verdict := .expired } = (s.pos p).cleanCounted r := by
          rw [← hv]; rfl
        rw [if_neg other, same]
        rfl
    have kept : t.identity = (s.forgiven p r).identity := by rw [e]; rfl
    refine ⟨?_, ?_, fun u hu hc hf => ?_, fun h => ?_⟩
    · rw [e, State.pos_modPos, State.pos_forgiven, hg]
      rfl
    · rw [e, State.modPos_eq, State.forgiven_eq]
      rfl
    · rw [kept, State.forgiven_identity_of_due hu hc hf]
    · rw [kept, State.forgiven_identity_of_not h]

end Sys2Proof.Machine
end
section
/-! SUPPORT. What the verdict unit moves, and the hand-off of a result (R69, R131, R145). -/
namespace Sys2Proof.Machine

/-! ### What a judgement moves -/

/-- The record but for its reject count. -/
def IdentityRecord.unjudged (r : IdentityRecord) : IdentityRecord := { r with rejects := 0 }

/-- The position but for what the verdict unit decides: taken over from `y`. -/
def Position.withVerdictOf (x y : Position) : Position :=
  { x with verdict := y.verdict, doubt := y.doubt, clean := y.clean, grace := y.grace }

/-- From `s` to `t` only position `p`'s verdict, streaks and grace, reject counts and the retired list have moved. -/
structure State.Judges (p : PosId) (s t : State) : Prop where
  state : t = { s with positions := t.positions, identity := t.identity, retired := t.retired,
                       retiredDropped := t.retiredDropped }
  others : ∀ q, p ≠ q → t.pos q = s.pos q
  own : t.pos p = (s.pos p).withVerdictOf (t.pos p)
  records : t.identity.map IdentityRecord.unjudged = s.identity.map IdentityRecord.unjudged

namespace State.Judges
variable {p : PosId} {s t u : State}

theorem refl (s : State) : State.Judges p s s := ⟨rfl, fun _ _ => rfl, rfl, rfl⟩

theorem trans (h : State.Judges p s t) (h' : State.Judges p t u) : State.Judges p s u where
  state := by rw [h'.state, h.state]
  others q hq := (h'.others q hq).trans (h.others q hq)
  own := by
    have own := h'.own
    rw [h.own] at own
    exact own
  records := h'.records.trans h.records

theorem modPos (s : State) {f : Position → Position} (hf : ∀ x, f x = x.withVerdictOf (f x)) :
    State.Judges p s (s.modPos p f) :=
  ⟨rfl, fun _ hq => s.pos_modPos_ne f hq, by rw [State.pos_modPos]; exact hf _, rfl⟩

theorem modRecord (s : State) (w : Word64) (f : Nat → Nat) :
    State.Judges p s (s.modRecord w (fun r => { r with rejects := f r.rejects })) where
  state := rfl
  others _ _ := rfl
  own := rfl
  records := by
    unfold State.modRecord
    rw [List.map_map]
    refine List.map_congr_left fun r _ => ?_
    simp only [Function.comp]
    split <;> rfl

theorem retire (s : State) (w : Word64) : State.Judges p s (s.retire w) :=
  ⟨by rw [s.retire_eq w], fun q _ => s.retire_pos w q, by rw [s.retire_pos]; rfl, by rw [s.retire_identity]⟩

theorem bar (s : State) : State.Judges p s (s.bar p) := by
  unfold State.bar
  have settled : State.Judges p s (s.modPos p (fun x => x.settle .barred)) := modPos s fun _ => rfl
  split
  · exact settled
  · exact settled.trans (retire _ _)

theorem countReject (s : State) (r : Result) : State.Judges p s (s.countReject p r) := by
  unfold State.countReject
  split
  · exact refl s
  · dsimp only
    split
    · exact (modRecord s _ fun n => min 15 (n + 1)).trans (bar _)
    · exact modRecord s _ fun n => min 15 (n + 1)

theorem reject (s : State) (r : Result) : State.Judges p s (s.reject p r) :=
  (modPos s fun _ => rfl).trans (countReject _ r)

theorem doubtResult (s : State) (r : Result) : State.Judges p s (s.doubtResult p r) := by
  have doubted : State.Judges p s (s.modPos p (fun x => { x with doubt := satInc x.doubt, clean := 0 })) :=
    modPos s fun _ => rfl
  unfold State.doubtResult
  dsimp only
  split
  case h_1 | h_2 | h_3 | h_4 =>
    split
    · exact (doubted.trans (modPos _ fun _ => rfl)).trans (reject _ r)
    · exact doubted.trans (modPos _ fun _ => rfl)
  all_goals exact doubted

theorem forgive (s : State) (b : Word16) (r : Result) : State.Judges p s (s.forgive p b r) := by
  unfold State.forgive
  split
  · exact refl s
  · split
    · exact modRecord s _ fun n => n - 1
    · exact refl s

theorem cleanResult (s : State) (r : Result) : State.Judges p s (s.cleanResult p r) := by
  have counted : State.Judges p s (s.setPos p { s.pos p with clean := satInc (s.pos p).clean, doubt := 0 }) :=
    modPos s (f := fun x => { x with clean := satInc x.clean, doubt := 0 }) fun _ => rfl
  have clear : ∀ v : State, State.Judges p v (v.modPos p Position.clear) := fun v => modPos v fun x => by
    unfold Position.clear
    split <;> rfl
  unfold State.cleanResult
  dsimp only
  split
  case h_1 | h_2 => exact counted.trans (clear _)
  case h_3 =>
    split
    · exact counted.trans (clear _)
    · exact counted
  case h_4 => exact (counted.trans (forgive _ _ r)).trans (modPos _ fun x => by split <;> rfl)
  case h_5 => exact (counted.trans (forgive _ _ r)).trans (modPos _ fun x => by split <;> rfl)
  all_goals exact refl s

end State.Judges

/-- Past the record of findings and reason, a result moves what the verdict unit decides and nothing else. -/
theorem State.applyResult_judges (s : State) (p : PosId) (r : Result) :
    State.Judges p (s.resultRecorded p r) (s.applyResult p r) := by
  unfold State.applyResult
  dsimp only
  (repeat' split)
  · exact State.Judges.refl _
  · exact State.Judges.bar _
  · exact State.Judges.reject _ r
  · exact State.Judges.modPos _ fun _ => rfl
  · exact State.Judges.doubtResult _ r
  · exact State.Judges.cleanResult _ r
  · exact State.Judges.modPos _ fun _ => rfl
  · exact State.Judges.refl _
  · exact State.Judges.refl _

/-! ### Known counters and records -/

theorem State.record_unjudged {s t : State}
    (h : t.identity.map IdentityRecord.unjudged = s.identity.map IdentityRecord.unjudged) (u : Word64) :
    (t.record u).map IdentityRecord.unjudged = (s.record u).map IdentityRecord.unjudged := by
  have found : ∀ v : State, (v.record u).map IdentityRecord.unjudged =
      (v.identity.map IdentityRecord.unjudged).find? (fun r => decide (r.uid = u)) := fun v => by
    rw [State.record, List.find?_map]
    rfl
  rw [found, found, h]

theorem State.known_of_unjudged {s t : State}
    (h : t.identity.map IdentityRecord.unjudged = s.identity.map IdentityRecord.unjudged) (u : Word64) :
    t.known u = s.known u := by
  have known : ∀ v : State, v.known u = (((v.record u).map IdentityRecord.unjudged).map (fun r => r.known)).getD 0 :=
    fun v => by rw [State.known, Option.map_map]; rfl
  rw [known, known, State.record_unjudged h]

theorem State.knownOf_of_unjudged {s t : State}
    (h : t.identity.map IdentityRecord.unjudged = s.identity.map IdentityRecord.unjudged) {x y : Position}
    (hx : y.boundUid = x.boundUid) : t.knownOf y = s.knownOf x := by
  rw [State.knownOf, State.knownOf, hx]
  cases x.boundUid with
  | none => rfl
  | some u => exact State.known_of_unjudged h u

section
variable (s : State) (p : PosId) (r : Result)

theorem State.applyResult_own : (s.applyResult p r).pos p =
    { s.pos p with
      findings := r.findings, reason := r.reason, verdict := ((s.applyResult p r).pos p).verdict,
      doubt := ((s.applyResult p r).pos p).doubt, clean := ((s.applyResult p r).pos p).clean,
      grace := ((s.applyResult p r).pos p).grace } := by
  have own := (s.applyResult_judges p r).own
  rw [State.resultRecorded, State.pos_setPos] at own
  exact own

theorem State.applyResult_records : (s.applyResult p r).identity.map IdentityRecord.unjudged =
    s.identity.map IdentityRecord.unjudged := (s.applyResult_judges p r).records

theorem State.applyResult_state : s.applyResult p r = { s with
    positions := (s.applyResult p r).positions, identity := (s.applyResult p r).identity,
    retired := (s.applyResult p r).retired, retiredDropped := (s.applyResult p r).retiredDropped } :=
  (s.applyResult_judges p r).state

/-- An immediate finding rejects or bars (R132 to R134). -/
theorem State.applyResult_verdict_of_immediate (h : r.findings &&& 0x00FF ≠ 0) :
    ((s.applyResult p r).pos p).verdict = .rejected ∨ ((s.applyResult p r).pos p).verdict = .barred := by
  by_cases hb : (s.pos p).verdict = .barred
  · rw [State.applyResult_of_barred hb, State.resultRecorded, State.pos_setPos]
    exact .inr hb
  · by_cases hr : hasAny r.findings fRetired = true ∧ r.concerned ≠ none
    · rw [State.applyResult_of_retired hb hr, State.pos_bar]
      exact .inr rfl
    · rw [State.applyResult_of_immediate hb hr ((hasAny_iff _ _).2 h), State.reject]
      rcases State.countReject_pos _ p r with e | e
      · rw [e, State.pos_modPos]; exact .inl rfl
      · rw [e]; exact .inr rfl

theorem State.applyResult_barred (h : (s.pos p).verdict = .barred) :
    ((s.applyResult p r).pos p).verdict = .barred := by
  rw [State.applyResult_of_barred h, State.resultRecorded, State.pos_setPos]
  exact h

end

end Sys2Proof.Machine
end
section
/-! SUPPORT. The hand-off at a cycle's end (R55, R69 to R71), and how a cycle goes on when its line work ends (R54,
R64, R65). -/
namespace Sys2Proof.Machine

/-! ### What the hand-off leaves unchanged -/

theorem foldl_keeps {α β : Type} (g : State → β) (f : State → α → State) (hf : ∀ s a, g (f s a) = g s) (l : List α)
    (s : State) : g (l.foldl f s) = g s := by
  induction l generalizing s with
  | nil => rfl
  | cons a l ih => rw [List.foldl_cons, ih, hf]

section
variable (s : State) (p : PosId) (r : Result)

@[simp] theorem State.applyResult_meas : (s.applyResult p r).meas = s.meas := by rw [State.applyResult_state]

@[simp] theorem State.applyResult_line (l : LineId) : (s.applyResult p r).line l = s.line l := by
  rw [State.applyResult_state]; cases l <;> rfl

@[simp] theorem State.handResult_identity : (s.handResult p r).identity = (s.applyResult p r).identity := by
  unfold State.handResult
  dsimp only
  split <;> simp

@[simp] theorem State.handResult_retired : (s.handResult p r).retired = (s.applyResult p r).retired := by
  unfold State.handResult
  dsimp only
  split <;> simp

@[simp] theorem State.handResult_meas : (s.handResult p r).meas = s.meas := by
  unfold State.handResult
  dsimp only
  split <;> simp

@[simp] theorem State.handResult_line (l : LineId) : (s.handResult p r).line l = s.line l := by
  unfold State.handResult
  dsimp only
  split <;> simp

theorem State.handResult_pos (q : PosId) : (s.handResult p r).pos q = (s.applyResult p r).pos q :=
  State.pos_congr (s.handResult_positions p r) q

theorem State.handResult_records : (s.handResult p r).identity.map IdentityRecord.unjudged =
    s.identity.map IdentityRecord.unjudged := (congrArg _ (s.handResult_identity p r)).trans (s.applyResult_records p r)

theorem State.known_of_identity {s t : State} (h : t.identity = s.identity) (u : Word64) : t.known u = s.known u :=
  State.known_of_unjudged (congrArg _ h) u

theorem State.knownOf_of_identity {s t : State} (h : t.identity = s.identity) (x : Position) :
    t.knownOf x = s.knownOf x := State.knownOf_of_unjudged (congrArg _ h) rfl

end

/-! ### The end of a cycle -/

section
variable (s : State) (p : PosId) (kind : ResultKind) (f : Word16) (reason : Reason) (lim : Limits)

/-- The result a cycle hands over (R69). -/
def State.cycleResult : Result :=
  { kind := kind, concerned := (s.pos p).boundUid, findings := f, reason := reason, limits := lim }

/-- The verdict unit's part of the hand-off: the wear flag evaluated, and the result applied. -/
def State.judged : State := (s.evaluateWear p).applyResult p (s.cycleResult p kind f reason lim)

/-- The hand-off up to the posting of the half, before the INSPECT tasks end. -/
def State.handedOff : State :=
  let t := (s.evaluateWear p).handResult p (s.cycleResult p kind f reason lim)
  (t.modPos p (fun x => x.recordCycle (s.context p) (t.knownOf x))).postHalf p

theorem State.endCycle_eq : s.endCycle p kind f reason lim =
    (s.handedOff p kind f reason lim).completeInspects p (s.context p).tasks true kind.code := rfl

theorem State.handedOff_identity :
    (s.handedOff p kind f reason lim).identity = (s.judged p kind f reason lim).identity := by
  simp [State.handedOff, State.judged, State.modPos, State.setPos]

theorem State.handedOff_retired :
    (s.handedOff p kind f reason lim).retired = (s.judged p kind f reason lim).retired := by
  simp [State.handedOff, State.judged, State.modPos, State.setPos]

@[simp] theorem State.evaluateWear_meas : (s.evaluateWear p).meas = s.meas := rfl

@[simp] theorem State.evaluateWear_identity : (s.evaluateWear p).identity = s.identity := rfl

@[simp] theorem State.evaluateWear_retired : (s.evaluateWear p).retired = s.retired := rfl

theorem State.pos_evaluateWear : (s.evaluateWear p).pos p = { s.pos p with wear := s.wearNow (s.pos p) } :=
  s.pos_modPos p _

theorem State.handedOff_meas : (s.handedOff p kind f reason lim).meas = s.meas := by
  simp [State.handedOff, State.modPos, State.setPos]

theorem State.endCycle_identity :
    (s.endCycle p kind f reason lim).identity = (s.judged p kind f reason lim).identity := by
  rw [State.endCycle_eq]
  exact (foldl_keeps (·.identity) _ (fun _ _ => State.complete_identity ..) _ _).trans (State.handedOff_identity ..)

theorem State.endCycle_retired : (s.endCycle p kind f reason lim).retired = (s.judged p kind f reason lim).retired := by
  rw [State.endCycle_eq]
  exact (foldl_keeps (·.retired) _ (fun _ _ => State.complete_retired ..) _ _).trans (State.handedOff_retired ..)

theorem State.endCycle_meas : (s.endCycle p kind f reason lim).meas = s.meas := by
  rw [State.endCycle_eq]
  exact (foldl_keeps (·.meas) _ (fun _ _ => State.complete_meas ..) _ _).trans (State.handedOff_meas ..)

theorem State.endCycle_records : (s.endCycle p kind f reason lim).identity.map IdentityRecord.unjudged =
    s.identity.map IdentityRecord.unjudged :=
  (congrArg _ (State.endCycle_identity ..)).trans (State.applyResult_records ..)

/-- What the verdict unit leaves of the position. -/
theorem State.pos_judged : (s.judged p kind f reason lim).pos p = { s.pos p with
    wear := s.wearNow (s.pos p), findings := f, reason := reason,
    verdict := ((s.judged p kind f reason lim).pos p).verdict, doubt := ((s.judged p kind f reason lim).pos p).doubt,
    clean := ((s.judged p kind f reason lim).pos p).clean, grace := ((s.judged p kind f reason lim).pos p).grace } := by
  have own := State.applyResult_own (s.evaluateWear p) p (s.cycleResult p kind f reason lim)
  rw [State.pos_evaluateWear] at own
  exact own

variable {s p} {c : CycleContext} (h : (s.pos p).cycle = some c)
include h

/-- The position at the end of its cycle: the verdict unit's part, and the items of the cycle (R55). -/
theorem State.pos_endCycle_of_cycle : (s.endCycle p kind f reason lim).pos p = { s.pos p with
    wear := s.wearNow (s.pos p), findings := f, reason := reason,
    verdict := ((s.judged p kind f reason lim).pos p).verdict, doubt := ((s.judged p kind f reason lim).pos p).doubt,
    clean := ((s.judged p kind f reason lim).pos p).clean, grace := ((s.judged p kind f reason lim).pos p).grace,
    clockRatio := c.ratio, tagTemp := if 7 ≤ c.n then clampTemp (tagTemperature c.blocks) else (s.pos p).tagTemp,
    known := s.knownOf (s.pos p), cyclesCompleted := (s.pos p).cyclesCompleted + 1, seq := .idle, cycle := none,
    edition := (s.pos p).edition + 2, pulseDirty := false } := by
  have handed := (s.evaluateWear p).handResult_pos p (s.cycleResult p kind f reason lim) p
  have judged := handed.trans (s.pos_judged p kind f reason lim)
  have known := State.knownOf_of_unjudged (s := s)
    ((s.evaluateWear p).handResult_records p (s.cycleResult p kind f reason lim)) (congrArg Position.boundUid judged)
  rw [State.pos_endCycle, State.context_of_cycle h]
  rw [State.cycleResult] at judged known
  dsimp only
  rw [known, judged]
  rfl

theorem State.handedOff_eq : s.handedOff p kind f reason lim =
    (((s.evaluateWear p).handResult p (s.cycleResult p kind f reason lim)).setPos p
      { (s.judged p kind f reason lim).pos p with
        clockRatio := c.ratio
        tagTemp := if 7 ≤ c.n then clampTemp (tagTemperature c.blocks)
          else ((s.judged p kind f reason lim).pos p).tagTemp
        known := ((s.evaluateWear p).handResult p (s.cycleResult p kind f reason lim)).knownOf
          ((s.judged p kind f reason lim).pos p)
        cyclesCompleted := (s.pos p).cyclesCompleted + 1, seq := .idle, cycle := none }).postHalf p := by
  have handed : ((s.evaluateWear p).handResult p (s.cycleResult p kind f reason lim)).pos p =
    (s.judged p kind f reason lim).pos p := State.handResult_pos ..
  have counted : ((s.judged p kind f reason lim).pos p).cyclesCompleted = (s.pos p).cyclesCompleted := by
    rw [State.pos_judged]
  unfold State.handedOff
  dsimp only
  rw [State.modPos_eq, handed, State.context_of_cycle h, Position.recordCycle, counted]

omit h in
theorem State.pos_handedOff : (s.handedOff p kind f reason lim).pos p = (s.endCycle p kind f reason lim).pos p := by
  rw [State.endCycle_eq]
  exact (State.pos_congr (State.completeInspects_positions ..) p).symm

/-- An inconclusive end moves findings and reason and the items of the cycle (R70). -/
theorem State.pos_endInconclusive : (s.endInconclusive p reason).pos p = { s.pos p with
    wear := s.wearNow (s.pos p), findings := 0, reason := reason, clockRatio := c.ratio,
    tagTemp := if 7 ≤ c.n then clampTemp (tagTemperature c.blocks) else (s.pos p).tagTemp,
    known := s.knownOf (s.pos p), cyclesCompleted := (s.pos p).cyclesCompleted + 1, seq := .idle, cycle := none,
    edition := (s.pos p).edition + 2, pulseDirty := false } := by
  have kept : (s.judged p .inconclusive 0 reason (limitsOf (s.context p).classCopy)).pos p =
      { s.pos p with wear := s.wearNow (s.pos p), findings := 0, reason := reason } := by
    rw [State.judged, State.cycleResult, State.applyResult_inconclusive, State.pos_modPos, State.pos_evaluateWear]
  rw [State.endInconclusive, State.pos_endCycle_of_cycle _ _ _ _ h, kept]

end

section
variable (s : State) (p : PosId) (reason : Reason)

@[simp] theorem State.endInconclusive_identity : (s.endInconclusive p reason).identity = s.identity := by
  rw [State.endInconclusive, State.endCycle_identity, State.judged, State.cycleResult, State.applyResult_inconclusive]
  rfl

@[simp] theorem State.endInconclusive_retired : (s.endInconclusive p reason).retired = s.retired := by
  rw [State.endInconclusive, State.endCycle_retired, State.judged, State.cycleResult, State.applyResult_inconclusive]
  rfl

end

/-! ### IDENTIFY (R53, R54) -/

section
variable {s : State} {p : PosId} {c : CycleContext} (hs : (s.pos p).seq = .cycle) (hc : (s.pos p).cycle = some c)
include hs hc

theorem State.positionLine_identify_failure (h : c.stage = .identify) (e : LineError) (n : Nat) :
    s.positionLine p (.failure e n) = s.identifyFailed p e n := by
  have stage : (s.context p).stage = .identify := by rw [State.context_of_cycle hc, h]
  unfold State.positionLine
  simp only [hs, stage]

theorem State.positionLine_identify_reply (h : c.stage = .identify) (st : Byte) (data : List Byte) (ratio : Word16)
    (n : Nat) : s.positionLine p (.reply st data ratio n) = s.identifyReply p st data ratio n := by
  have stage : (s.context p).stage = .identify := by rw [State.context_of_cycle hc, h]
  unfold State.positionLine
  simp only [hs, stage]

theorem State.positionLine_challenge_failure (h : c.stage = .challenge) (e : LineError) (n : Nat) :
    s.positionLine p (.failure e n) = s.challengeFailed p e := by
  have stage : (s.context p).stage = .challenge := by rw [State.context_of_cycle hc, h]
  unfold State.positionLine
  simp only [hs, stage]

theorem State.positionLine_challenge_reply (h : c.stage = .challenge) (st : Byte) (data : List Byte) (ratio : Word16)
    (n : Nat) : s.positionLine p (.reply st data ratio n) = s.challengeReply p st data n := by
  have stage : (s.context p).stage = .challenge := by rw [State.context_of_cycle hc, h]
  unfold State.positionLine
  simp only [hs, stage]

end

section
variable {s : State} {p : PosId} {c : CycleContext} (hc : (s.pos p).cycle = some c)
include hc

theorem State.identifyReply_eq (st : Byte) (data : List Byte) (ratio : Word16) (n : Nat) :
    s.identifyReply p st data ratio n = (s.setPos p { s.pos p with
      missed := 0
      cycle := some { c with
        stage := .checks, status := some st, n := if st = 0 ∨ st = 6 then (byteAt data 0).toNat else 0,
        blocks := if st = 0 ∨ st = 6 then data.drop 1 else [], ratio := ratio, identifyRetries := n } }).checks p := by
  unfold State.identifyReply
  dsimp only
  rw [State.modPos_eq, State.modContext_of_cycle (c := c) (by rw [State.pos_setPos]; exact hc), State.pos_setPos,
    State.setPos_setPos]
  simp only [decide_eq_true_eq]

/-- The state in which a failed IDENTIFY is judged: the error recorded, the retries in the context. -/
def State.unheard (s : State) (p : PosId) (c : CycleContext) (e : LineError) (n : Nat) : State :=
  s.setPos p { s.pos p with lastLineError := some e, cycle := some { c with identifyRetries := n } }

theorem State.identifyFailed_eq (e : LineError) (n : Nat) : s.identifyFailed p e n =
    if e = .noReply then
      let t := (s.unheard p c e n).leaveContests p none
      if (t.pos p).boundUid = none then t.enterPresence p
      else if (t.pos p).missed = 0 then (t.modPos p (fun x => { x with missed := 1 })).endInconclusive p .link
      else (t.endBinding p).enterPresence p
    else (s.unheard p c e n).endInconclusive p .link := by
  unfold State.identifyFailed
  dsimp only
  rw [State.modPos_eq, State.modContext_of_cycle (c := c) (by rw [State.pos_setPos]; exact hc), State.pos_setPos,
    State.setPos_setPos]
  rfl

omit hc in
/-- Presence without a channel: ABSENT at once (R71). -/
theorem State.enterPresence_of_none (h : (s.pos p).applied.channel = none) : s.enterPresence p =
    (s.setPos p { s.pos p with uid := .none, classCode := 0 }).endCycle p .absent 0 .none Limits.noClass := by
  unfold State.enterPresence
  rw [h]
  rfl

/-- Presence with a channel: a measurement is placed (R71). -/
theorem State.enterPresence_of_some {ch : ChannelId} (h : (s.pos p).applied.channel = some ch) : s.enterPresence p =
    (s.setPos p { s.pos p with uid := .none, classCode := 0, cycle := some { c with stage := .presence } }).placeMeas
      { channel := ch, kind := .presence p } := by
  unfold State.enterPresence
  rw [h]
  dsimp only
  rw [State.modPos_eq, State.modContext_of_cycle (c := c) (by rw [State.pos_setPos]; exact hc), State.pos_setPos,
    State.setPos_setPos]

end

/-! ### SIGNATURE (R66) -/

section
variable {s : State} {p : PosId} {c : CycleContext} {k : ClassRecord} (hc : (s.pos p).cycle = some c)
  (hk : c.classCopy = some k)
include hc hk

theorem State.enterSignature_of_mode_none (hm : k.mode = .none) : s.enterSignature p = s.enterScreen p := by
  unfold State.enterSignature
  simp only [State.context_of_cycle hc, hk, hm]

theorem State.enterSignature_of_no_channel (hm : k.mode = .required) (hn : (s.pos p).applied.channel = none) :
    s.enterSignature p = s.endInconclusive p .noChannel := by
  unfold State.enterSignature
  simp only [State.context_of_cycle hc, hk, hm, hn]

theorem State.enterSignature_of_no_factory (hm : k.mode = .required) (hn : (s.pos p).applied.channel ≠ none)
    (hf : tagFactory c.blocks = 0) : s.enterSignature p =
      (s.setPos p { s.pos p with cycle := some { c with findings := c.findings ||| 0x0200 } }).enterScreen p := by
  obtain ⟨ch, hch⟩ := Option.ne_none_iff_exists'.1 hn
  have marked : s.enterSignature p =
      (s.modContext p (fun c => { c with findings := c.findings ||| 0x0200 })).enterScreen p := by
    unfold State.enterSignature
    simp only [State.context_of_cycle hc, hk, hm, hch, hf, if_true]
    rfl
  rw [marked, State.modContext_of_cycle hc]

theorem State.enterSignature_of_channel {ch : ChannelId} (hm : k.mode = .required)
    (hch : (s.pos p).applied.channel = some ch) (hf : tagFactory c.blocks ≠ 0) : s.enterSignature p =
      (s.setPos p { s.pos p with cycle := some { c with stage := .signature } }).placeMeas
        { channel := ch
          kind := .signature p (s.pos p).applied.tempSource (tagTemperature c.blocks) (tagFactory c.blocks)
            (tagCounter c.blocks) k.alpha k.beta k.tau } := by
  have placed : s.enterSignature p = (s.modContext p (fun c => { c with stage := .signature })).placeMeas
      { channel := ch
        kind := .signature p (s.pos p).applied.tempSource (tagTemperature c.blocks) (tagFactory c.blocks)
          (tagCounter c.blocks) k.alpha k.beta k.tau } := by
    unfold State.enterSignature
    simp only [State.context_of_cycle hc, hk, hm, hch, hf, if_false]
  rw [placed, State.modContext_of_cycle hc]

end

/-! ### CHALLENGE (R63 to R65) -/

/-- The tag's reply to CHALLENGE taken into the context, the findings set to `f`. -/
def State.answered (s : State) (p : PosId) (c : CycleContext) (n : Nat) (f : Word16) : State :=
  s.setPos p { s.pos p with cycle := some { c with challengeRetries := n, findings := f } }

/-- A genuine reply taken: K of the bound UID raised to the counter of IDENTIFY (R64). -/
def State.confirmed (s : State) (p : PosId) (c : CycleContext) (n : Nat) (f : Word16) : State :=
  ({ s with
    identity := s.identity.map (fun (r : IdentityRecord) =>
      if (s.pos p).boundUid = some r.uid then
        { r with known := if r.known.toNat < (tagCounter c.blocks).toNat then tagCounter c.blocks else r.known }
      else r) } : State).answered p c n f

/-- K of the bound UID, if any, is raised where the records stand. -/
theorem State.confirmed_eq (s : State) (p : PosId) (c : CycleContext) (n : Nat) (f : Word16) :
    s.confirmed p c n f =
      match (s.pos p).boundUid with
      | none => s.answered p c n f
      | some u => (s.answered p c n f).raiseKnown u (tagCounter c.blocks) := by
  unfold State.confirmed
  cases h : (s.pos p).boundUid with
  | none => simp
  | some u =>
    have swap : ∀ r : IdentityRecord, (some u = some r.uid) = (r.uid = u) := fun r => by
      rw [Option.some.injEq]; exact propext eq_comm
    simp only [swap]
    rfl

section
variable {s : State} {p : PosId} {c : CycleContext} {k : ClassRecord} (hc : (s.pos p).cycle = some c)
include hc

omit hc in
theorem State.challengeFailed_eq (e : LineError) : s.challengeFailed p e =
    (s.setPos p { s.pos p with lastLineError := some e }).endInconclusive p .link := rfl

theorem State.modContext_answered (n : Nat) :
    s.modContext p (fun c => { c with challengeRetries := n }) = s.answered p c n c.findings :=
  State.modContext_of_cycle hc _

omit hc in
theorem State.answered_cycle (n : Nat) (f : Word16) :
    ((s.answered p c n f).pos p).cycle = some { c with challengeRetries := n, findings := f } := by
  rw [State.answered, State.pos_setPos]

variable (hk : c.classCopy = some k)
include hk

theorem State.challengeReply_of_no_key (hv : ¬ (s.keys.slots[k.keySlot.val]).isValid = true) (st : Byte)
    (data : List Byte) (n : Nat) :
    s.challengeReply p st data n = (s.answered p c n c.findings).endInconclusive p .noKey := by
  have keys : (s.answered p c n c.findings).keys = s.keys := rfl
  unfold State.challengeReply
  simp only [State.modContext_answered hc, State.context_of_cycle (State.answered_cycle n _), hk, keys]
  cases h : s.keys.slots[k.keySlot.val] with
  | empty => rfl
  | invalid => rfl
  | valid key => rw [h] at hv; exact absurd rfl hv

theorem State.challengeReply_of_key {key : Key} (hv : s.keys.slots[k.keySlot.val] = .valid key) (st : Byte)
    (data : List Byte) (n : Nat) : s.challengeReply p st data n =
      if st = 0 ∧ word64At data 0 =
          Config.response (Config.partKey key (tagUid c.blocks)) (c.challenge.getD 0) (tagCounter c.blocks)
      then (s.confirmed p c n c.findings).enterSignature p
      else (s.answered p c n c.findings).endCycle p .findings (c.findings ||| 0x0080) .none k.limits := by
  have keys : (s.answered p c n c.findings).keys = s.keys := rfl
  have uid : ((s.answered p c n c.findings).pos p).boundUid = (s.pos p).boundUid := by
    rw [State.answered, State.pos_setPos]; rfl
  unfold State.challengeReply
  simp only [State.modContext_answered hc, State.context_of_cycle (State.answered_cycle n _), hk, keys, hv, uid]
  rw [State.confirmed_eq]
  refine ite_congr rfl (fun _ => ?_) (fun _ => rfl)
  cases (s.pos p).boundUid <;> rfl

end
end Sys2Proof.Machine
end
section
/-! PROOFS. How a cycle goes on, and its hand-off (R54, R64 to R71). -/
namespace Sys2Proof.Machine

/-- What an inconclusive end makes of a state whose position `p` was `y`, in a cycle with the clock ratio `ratio`. -/
structure State.EndsInconclusive (s : State) (p : PosId) (ratio : Word16) (t : State) (y : Position) (reason : Reason) :
    Prop where
  pos : t.pos p = { y with
    findings := 0, reason := reason, seq := .idle, cycle := none, cyclesCompleted := (s.pos p).cyclesCompleted + 1,
    clockRatio := ratio, edition := (s.pos p).edition + 2, pulseDirty := false, wear := (t.pos p).wear,
    known := (t.pos p).known, tagTemp := (t.pos p).tagTemp }
  identity : t.identity = s.identity
  retired : t.retired = s.retired

/-- The position and the context it runs in may first be changed in what the end overwrites. -/
theorem State.endsInconclusive {s v : State} {p : PosId} {y : Position} {e : CycleContext} (reason : Reason)
    (hv : v.pos p = { y with cycle := some e }) (hi : v.identity = s.identity) (hr : v.retired = s.retired)
    (hn : y.cyclesCompleted = (s.pos p).cyclesCompleted) (he : y.edition = (s.pos p).edition) :
    s.EndsInconclusive p e.ratio (v.endInconclusive p reason) y reason where
  pos := by
    have ended := State.pos_endInconclusive (s := v) (p := p) (c := e) reason (by rw [hv])
    rw [hv] at ended
    rw [ended, hn, he]
  identity := (State.endInconclusive_identity ..).trans hi
  retired := (State.endInconclusive_retired ..).trans hr

section
variable {s : State} {p : PosId} {c : CycleContext} (hs : (s.pos p).seq = .cycle) (hc : (s.pos p).cycle = some c)
include hs hc

theorem State.identify_failure_ends (h : c.stage = .identify) {e : LineError} (he : e ≠ .noReply) (n : Nat) :
    s.EndsInconclusive p c.ratio (s.positionLine p (.failure e n)) { s.pos p with lastLineError := some e } .link := by
  rw [State.positionLine_identify_failure hs hc h, State.identifyFailed_eq hc, if_neg he]
  exact State.endsInconclusive (e := { c with identifyRetries := n }) _ (State.pos_setPos ..) rfl rfl rfl rfl

theorem State.challenge_failure_ends (h : c.stage = .challenge) (e : LineError) (n : Nat) :
    s.EndsInconclusive p c.ratio (s.positionLine p (.failure e n)) { s.pos p with lastLineError := some e } .link := by
  rw [State.positionLine_challenge_failure hs hc h, State.challengeFailed_eq (s := s) e]
  exact State.endsInconclusive (e := c) _ (by rw [State.pos_setPos, ← hc]) rfl rfl rfl rfl

/-! ### No tag answers IDENTIFY (R12 to R14) -/

variable (h : c.stage = .identify) (n : Nat)
include h

/-- No tag answers: by the binding and the missed roll calls (R12, R13). -/
theorem State.positionLine_unheard : s.positionLine p (.failure .noReply n) =
    let t := (s.unheard p c .noReply n).leaveContests p none
    if (s.pos p).boundUid = none then t.enterPresence p
    else if (s.pos p).missed = 0 then (t.modPos p (fun x => { x with missed := 1 })).endInconclusive p .link
    else (t.endBinding p).enterPresence p := by
  have same : ((s.unheard p c .noReply n).leaveContests p none).pos p =
      { s.pos p with lastLineError := some .noReply, cycle := some { c with identifyRetries := n } } :=
    s.pos_setPos p _
  rw [State.positionLine_identify_failure hs hc h, State.identifyFailed_eq hc, if_pos rfl]
  dsimp only
  rw [same]
  rfl

/-- The first missed roll call is counted, and the end is inconclusive. -/
theorem State.unheard_bound_first (hb : (s.pos p).boundUid ≠ none) (hm : (s.pos p).missed = 0) :
    ∃ v : State, v.EndsInconclusive p c.ratio (s.positionLine p (.failure .noReply n))
        { s.pos p with lastLineError := some .noReply, missed := 1 } .link := by
  rw [State.positionLine_unheard hs hc h]
  dsimp only
  rw [if_neg hb, if_pos hm]
  have same : (((s.unheard p c .noReply n).leaveContests p none).modPos p (fun x => { x with missed := 1 })).pos p =
      { s.pos p with lastLineError := some .noReply, missed := 1, cycle := some { c with identifyRetries := n } } := by
    rw [State.pos_modPos]
    exact congrArg (fun x : Position => { x with missed := 1 }) (s.pos_setPos p _)
  refine ⟨((s.unheard p c .noReply n).leaveContests p none).modPos p (fun x => { x with missed := 1 }), ?_⟩
  exact State.endsInconclusive (y := { s.pos p with lastLineError := some .noReply, missed := 1 })
    (e := { c with identifyRetries := n }) .link same rfl rfl (by rw [same]) (by rw [same])

end

/-- Presence without a channel ends the cycle ABSENT: VACANT with streaks and grace 0 (R71, R141). -/
theorem State.pos_enterPresence_of_none {v : State} {p : PosId} {c : CycleContext} (hc : (v.pos p).cycle = some c)
    (hn : (v.pos p).applied.channel = none) (hb : (v.pos p).verdict ≠ .barred) :
    (v.enterPresence p).pos p = { v.pos p with
      uid := .none, classCode := 0, wear := false, findings := 0, reason := .none, verdict := .vacant, doubt := 0,
      clean := 0, grace := 0, clockRatio := c.ratio,
      tagTemp := if 7 ≤ c.n then clampTemp (tagTemperature c.blocks) else (v.pos p).tagTemp, known := 0,
      cyclesCompleted := (v.pos p).cyclesCompleted + 1, seq := .idle, cycle := none,
      edition := (v.pos p).edition + 2, pulseDirty := false } := by
  have judged : ((v.setPos p { v.pos p with uid := .none, classCode := 0 }).judged p .absent 0 .none Limits.noClass).pos
      p = { v.pos p with uid := .none, classCode := 0, wear := false, findings := 0, reason := .none, verdict := .vacant,
                         doubt := 0, clean := 0, grace := 0 } := by
    have wear : (v.setPos p { v.pos p with uid := .none, classCode := 0 }).evaluateWear p =
        v.setPos p { v.pos p with uid := .none, classCode := 0, wear := false } := by
      rw [State.evaluateWear, State.modPos_setPos]
      rfl
    rw [State.judged, wear, State.applyResult_of_absent _ rfl rfl, State.pos_setPos, State.pos_setPos]
    · rfl
    · rw [State.pos_setPos]; exact hb
  rw [State.enterPresence_of_none hn,
    State.pos_endCycle_of_cycle (c := c) _ _ _ _ (by rw [State.pos_setPos]; exact hc), judged, State.pos_setPos]
  rfl

/-- Presence with a channel leaves the position waiting for its measurement. -/
theorem State.pos_enterPresence_of_some {v : State} {p : PosId} {c : CycleContext} {ch : ChannelId}
    (hc : (v.pos p).cycle = some c) (hn : (v.pos p).applied.channel = some ch) : (v.enterPresence p).pos p =
      { v.pos p with uid := .none, classCode := 0, cycle := some { c with stage := .presence } } := by
  rw [State.enterPresence_of_some hc hn]
  exact v.pos_setPos p _

/-- A second missed roll call departs the binding before presence is looked for (R13). -/
theorem State.unheard_bound_again {s : State} {p : PosId} {c : CycleContext} (hs : (s.pos p).seq = .cycle)
    (hc : (s.pos p).cycle = some c) (h : c.stage = .identify) (n : Nat) (hb : (s.pos p).boundUid ≠ none)
    (hm : (s.pos p).missed ≠ 0) :
    let t := s.positionLine p (.failure .noReply n)
    (t.pos p).verdict = .vacant ∧ (t.pos p).missed = 0 ∧ (t.pos p).boundUid = none ∧ (t.pos p).pendingUse = 0 ∧
      (t.pos p).inFlight = 0 ∧
      (t.pos p).lost = (s.pos p).lost + (s.pos p).pendingUse.setWidth 32 + (s.pos p).inFlight.setWidth 32 ∧
      ((t.pos p).seq = .idle ↔ (s.pos p).applied.channel = none) := by
  have departed : (((s.unheard p c .noReply n).leaveContests p none).endBinding p).pos p =
      { s.pos p with lastLineError := some .noReply, cycle := some { c with identifyRetries := n } }.depart := by
    rw [State.pos_endBinding]
    exact congrArg Position.depart (s.pos_setPos p _)
  rw [State.positionLine_unheard hs hc h]
  dsimp only
  rw [if_neg hb, if_neg hm]
  generalize ((s.unheard p c .noReply n).leaveContests p none).endBinding p = v at departed ⊢
  have cycle : (v.pos p).cycle = some { c with identifyRetries := n } := by rw [departed]; rfl
  have channel : (v.pos p).applied.channel = (s.pos p).applied.channel := by rw [departed]; rfl
  cases hch : (s.pos p).applied.channel with
  | none =>
    have vacant : (v.pos p).verdict ≠ .barred := by rw [departed]; exact Verdict.noConfusion
    rw [State.pos_enterPresence_of_none cycle (channel.trans hch) vacant, departed]
    exact ⟨rfl, rfl, rfl, rfl, rfl, rfl, iff_of_true rfl rfl⟩
  | some ch =>
    rw [State.pos_enterPresence_of_some cycle (channel.trans hch), departed]
    have busy : (s.pos p).seq ≠ .idle := by rw [hs]; exact SeqState.noConfusion
    exact ⟨rfl, rfl, rfl, rfl, rfl, rfl, iff_of_false busy (Option.some_ne_none ch)⟩

/-- A position without a binding looks for presence at once (R14, R71). -/
theorem State.unheard_unbound {s : State} {p : PosId} {c : CycleContext} (hs : (s.pos p).seq = .cycle)
    (hc : (s.pos p).cycle = some c) (h : c.stage = .identify) (n : Nat) (hb : (s.pos p).boundUid = none)
    (hv : (s.pos p).verdict ≠ .barred) :
    let t := s.positionLine p (.failure .noReply n)
    ((s.pos p).applied.channel = none → (t.pos p).verdict = .vacant ∧ (t.pos p).grace = 0 ∧ (t.pos p).seq = .idle) ∧
      ∀ ch, (s.pos p).applied.channel = some ch →
        t.meas = { s.meas with queue := s.meas.queue ++ [{ channel := ch, kind := .presence p }] } ∧
        (t.pos p).verdict = (s.pos p).verdict ∧ (t.pos p).seq = .cycle := by
  have same : ((s.unheard p c .noReply n).leaveContests p none).pos p =
      { s.pos p with lastLineError := some .noReply, cycle := some { c with identifyRetries := n } } :=
    s.pos_setPos p _
  rw [State.positionLine_unheard hs hc h]
  dsimp only
  rw [if_pos hb]
  have meas : ((s.unheard p c .noReply n).leaveContests p none).meas = s.meas := rfl
  generalize (s.unheard p c .noReply n).leaveContests p none = v at same meas ⊢
  have cycle : (v.pos p).cycle = some { c with identifyRetries := n } := by rw [same]
  have channel : (v.pos p).applied.channel = (s.pos p).applied.channel := by rw [same]
  refine ⟨fun hn => ?_, fun ch hch => ?_⟩
  · rw [State.pos_enterPresence_of_none cycle (channel.trans hn) (by rw [same]; exact hv)]
    exact ⟨rfl, rfl, rfl⟩
  · rw [State.pos_enterPresence_of_some cycle (channel.trans hch), same]
    refine ⟨?_, rfl, hs⟩
    rw [State.enterPresence_of_some cycle (channel.trans hch), ← meas]
    rfl

/-! ### A tag answers CHALLENGE (R64) -/

section
variable {s : State} {p : PosId} {c : CycleContext} {k : ClassRecord} (n : Nat) (g : Word16)

theorem State.pos_confirmed : (s.confirmed p c n g).pos p =
    { s.pos p with cycle := some { c with challengeRetries := n, findings := g } } := State.pos_setPos ..

theorem State.confirmed_cycle : ((s.confirmed p c n g).pos p).cycle =
    some { c with challengeRetries := n, findings := g } := by rw [State.pos_confirmed]

/-- The screening inputs once the reply to CHALLENGE is taken. -/
def State.confirmedInputs (s : State) (p : PosId) (c : CycleContext) (n : Nat) : ScreenInputs where
  deviation := c.deviation.map BitVec.toInt
  r20 := c.r20.map BitVec.toInt
  clock := c.ratio.toNat
  temp := (c.temp.getD (clampTemp (tagTemperature c.blocks))).toInt
  usageThousands := ((tagCounter c.blocks).toNat / 1000 : Nat)
  pending := (s.pos p).pendingUse.toNat
  retries := (c.identifyRetries + n : Nat)
  classCode := tagClass c.blocks

theorem State.screenInputs_confirmed : (s.confirmed p c n g).screenInputs p = s.confirmedInputs p c n := by
  rw [State.screenInputs_of_cycle (State.confirmed_cycle n g), State.pos_confirmed]
  rfl

/-- After a genuine reply without a measurement, screening decides the result. -/
theorem State.enterScreen_confirmed (hk : c.classCopy = some k) :
    let f := g ||| screenFindings s.rules.toList (s.confirmedInputs p c n)
    (f = 0 → (s.confirmed p c n g).enterScreen p = (s.confirmed p c n g).endCycle p .clean 0 .none k.limits) ∧
      (f ≠ 0 → (s.confirmed p c n g).enterScreen p = (s.confirmed p c n g).endCycle p .findings f .none k.limits) := by
  have limits : limitsOf c.classCopy = k.limits := by rw [hk]; rfl
  have same : screenFindings (s.confirmed p c n g).rules.toList ((s.confirmed p c n g).screenInputs p) =
      screenFindings s.rules.toList (s.confirmedInputs p c n) := by
    rw [State.screenInputs_confirmed]
    rfl
  refine ⟨fun hf => ?_, fun hf => ?_⟩
  · rw [State.enterScreen_of_none (State.confirmed_cycle n g) (by rw [same]; exact hf), limits]
  · rw [State.enterScreen_of_some (State.confirmed_cycle n g) (by rw [same]; exact hf), same, limits]

/-- K of the bound UID after a genuine reply. -/
theorem State.known_confirmed {w : Word64} {rec : IdentityRecord} (hb : (s.pos p).boundUid = some w)
    (hr : s.record w = some rec) :
    ((s.confirmed p c n g).known w).toNat = max rec.known.toNat (tagCounter c.blocks).toNat := by
  have raised : (s.confirmed p c n g).record w =
      some { rec with known := maxWord rec.known (tagCounter c.blocks) } := by
    rw [State.confirmed_eq, hb]
    exact State.record_modRecord (s := s.answered p c n g) hr fun _ => rfl
  rw [State.known, raised]
  change (maxWord rec.known (tagCounter c.blocks)).toNat = _
  unfold maxWord
  split <;> omega

end

theorem knowns_of_records {l m : List IdentityRecord} (h : l.map IdentityRecord.unjudged = m.map IdentityRecord.unjudged) :
    l.map (·.known) = m.map (·.known) := by
  have knowns := congrArg (List.map (fun r : IdentityRecord => r.known)) h
  rw [List.map_map, List.map_map] at knowns
  exact knowns

/-- A reply that is not genuine: RESPONSE is found, and the part is rejected or barred (R64, R134). -/
theorem State.false_answer {s : State} {p : PosId} {c : CycleContext} {k : ClassRecord} (n : Nat) :
    let t := (s.answered p c n c.findings).endCycle p .findings (c.findings ||| 0x0080) .none k.limits
    (t.pos p).findings = c.findings ||| 0x0080 ∧ (t.pos p).seq = .idle ∧
      ((t.pos p).verdict = .rejected ∨ (t.pos p).verdict = .barred) ∧
      t.identity.map (·.known) = s.identity.map (·.known) := by
  have immediate : (c.findings ||| 0x0080) &&& (0x00FF : Word16) ≠ 0 := fun e => by
    have bit := congrArg (fun v : Word16 => v.getLsbD 7) e
    simp at bit
  have judged := State.applyResult_verdict_of_immediate ((s.answered p c n c.findings).evaluateWear p) p
    ((s.answered p c n c.findings).cycleResult p .findings (c.findings ||| 0x0080) .none k.limits) immediate
  intro t
  have pos := State.pos_endCycle_of_cycle .findings (c.findings ||| 0x0080) .none k.limits
    (State.answered_cycle (s := s) (p := p) (c := c) n c.findings)
  refine ⟨?_, ?_, ?_, knowns_of_records (State.endCycle_records ..)⟩
  · rw [pos]
  · rw [pos]
  · rw [pos]; exact judged

/-! ### The obligation -/

theorem State.endCycle_posted {s : State} {p : PosId} {c : CycleContext} (hc : (s.pos p).cycle = some c)
    (kind : ResultKind) (f : Word16) (reason : Reason) (lim : Limits) : s.endCycle p kind f reason lim =
      c.tasks.foldl (fun t k => t.complete k .ok (inspectData p ((s.handedOff p kind f reason lim).pos p) true kind.code))
        (s.handedOff p kind f reason lim) := by
  rw [State.endCycle_eq, State.context_of_cycle hc, State.completeInspects]

/-- Settles O59: the hand-off by its posting, then each end of line work by its stage. -/
theorem cycleGoesOn : Obligations.CycleGoesOn := by
  refine ⟨fun s p c kind f reason lim hc => ?_, fun s p c hs hc => ?_⟩
  · intro x worn r given told posted y data
    have handed : s.handedOff p kind f reason lim = posted := State.handedOff_eq kind f reason lim hc
    have pos : y = (s.endCycle p kind f reason lim).pos p := by
      rw [← State.pos_handedOff, handed]
    have ended := State.endCycle_posted hc kind f reason lim
    rw [handed] at ended
    rw [State.pos_endCycle_of_cycle kind f reason lim hc] at pos
    refine ⟨ended, ?_, ?_, ?_, ?_, rfl⟩ <;> rw [pos]
  · intro x inconclusive
    have ends {t : State} {y : Position} {reason : Reason} (h : s.EndsInconclusive p c.ratio t y reason) :
        inconclusive t y reason := ⟨h.pos, h.identity, h.retired⟩
    refine ⟨fun e n hst he => ends (State.identify_failure_ends hs hc hst he n), fun status data ratio n hst => ?_,
      fun e n hst => ends (State.challenge_failure_ends hs hc hst e n), fun n hst hb hm => ?_,
      fun n hst hb hm => State.unheard_bound_again hs hc hst n hb hm,
      fun n hst hb hv => State.unheard_unbound hs hc hst n hb hv, fun status data ratio n k hst hk => ?_⟩
    · intro carries
      rw [State.positionLine_identify_reply hs hc hst, State.identifyReply_eq hc]
    · obtain ⟨v, ended⟩ := State.unheard_bound_first hs hc hst n hb hm
      intro t
      rw [ended.pos]
      exact ⟨rfl, rfl, rfl, rfl, rfl, rfl, rfl⟩
    · intro t
      have replied : t = s.challengeReply p status data n := State.positionLine_challenge_reply hs hc hst ..
      refine ⟨fun hv => ends ?_, fun key hv => ?_⟩
      · rw [replied, State.challengeReply_of_no_key hc hk hv]
        exact State.endsInconclusive (e := { c with challengeRetries := n }) _ (State.pos_setPos ..) rfl rfl rfl rfl
      · intro genuine
        rw [State.challengeReply_of_key hc hk hv] at replied
        refine ⟨fun hg => ?_, fun hg => ?_, fun w rec ch hg hb hr hm hch hf => ?_⟩
        · rw [replied, if_neg hg]
          exact State.false_answer n
        · rw [if_pos hg] at replied
          have cycle := State.confirmed_cycle (s := s) (p := p) (c := c) n c.findings
          have pos := State.pos_confirmed (s := s) (p := p) (c := c) n c.findings
          have channel : ((s.confirmed p c n c.findings).pos p).applied.channel = x.applied.channel := by rw [pos]
          intro count taken screened
          have screen (g : Word16) (h : t = (s.confirmed p c n g).enterScreen p) : screened g := by
            have entered := State.enterScreen_confirmed (s := s) (p := p) n g hk
            rw [← h] at entered
            exact entered
          refine ⟨fun hm => screen _ ?_, fun hm hn => ?_, fun hm hn hf => screen _ ?_⟩
          · rw [replied, State.enterSignature_of_mode_none cycle hk hm]
          · rw [replied, State.enterSignature_of_no_channel cycle hk hm (channel.trans hn), State.endInconclusive,
              State.context_of_cycle cycle]
            simp only [hk]
            rfl
          · rw [replied, State.enterSignature_of_no_factory cycle hk hm (fun e => hn (channel.symm.trans e)) hf, pos]
            refine congrArg (State.enterScreen · p) ?_
            exact State.setPos_setPos ..
        · have pos := State.pos_confirmed (s := s) (p := p) (c := c) n c.findings
          rw [if_pos hg, State.enterSignature_of_channel (State.confirmed_cycle n c.findings) hk hm
            (by rw [pos]; exact hch) hf] at replied
          rw [replied]
          refine ⟨State.known_confirmed n c.findings hb hr, ?_, ?_⟩
          · refine (congrArg Position.seq (State.pos_setPos ..)).trans ?_
            rw [pos]; exact hs
          · rw [pos]; rfl
end Sys2Proof.Machine
end
section
/-! PROOFS. How a commit ends or goes on (R101 to R111, R142). -/
namespace Sys2Proof.Machine

/-! ### The end of a commit -/

theorem CommitOutcome.status_code (o : CommitOutcome) : o.status.code = if o.code = 6 then 0x30 else 0 := by
  cases o <;> rfl

theorem State.commitOf_of_commit {s : State} {p : PosId} {c : CommitContext} (h : (s.pos p).commit = some c) :
    s.commitOf p = c := by
  rw [State.commitOf, h]
  rfl

/-- The position with its wear flag evaluated at the end of a commit with the base `base` (R111, R142). -/
def Position.worn (x : Position) (changed due : Bool) : Position :=
  { x with
    wear := if changed then due else x.wear
    verdict := if changed = true ∧ due = true ∧ x.wear = false ∧ x.verdict = .cleared then .expired else x.verdict }

section
variable {s : State} {p : PosId} {c : CommitContext} (h : (s.pos p).commit = some c)
include h

theorem State.pos_commitWear : (s.commitWear p).pos p =
    (s.pos p).worn (decide (s.knownOf (s.pos p) ≠ c.base)) (s.wearNow (s.pos p)) := by
  unfold State.commitWear Position.worn
  dsimp only
  rw [State.commitOf_of_commit h]
  by_cases hk : s.knownOf (s.pos p) = c.base
  · simp only [hk, ne_eq, not_true_eq_false, decide_false, Bool.false_eq_true, false_and, if_true, if_false]
  · by_cases hw : s.wearNow (s.pos p) = true ∧ (s.pos p).wear = false
    · rw [if_neg hk, if_pos hw, State.pos_congr (State.evaluatePermits_positions _), State.pos_setPos]
      simp only [ne_eq, hk, not_false_eq_true, decide_true, if_true, true_and, hw]
    · rw [if_neg hk, if_neg hw, State.pos_setPos]
      have unset : ¬ (s.wearNow (s.pos p) = true ∧ (s.pos p).wear = false ∧ (s.pos p).verdict = .cleared) :=
        fun e => hw ⟨e.1, e.2.1⟩
      simp only [ne_eq, hk, not_false_eq_true, decide_true, if_true, true_and, if_neg unset]

omit h in
theorem State.commitWear_identity : (s.commitWear p).identity = s.identity := by
  unfold State.commitWear
  dsimp only
  (repeat' split) <;> simp

/-- The commit ended, its half posted, its tasks not yet completed. -/
def State.commitPosted (s : State) (p : PosId) : State :=
  ((s.commitWear p).modPos p (fun x => { x with known := (s.commitWear p).knownOf x, seq := .idle, commit := none })).postHalf
    p

omit h in
theorem State.commitPosted_identity : (s.commitPosted p).identity = s.identity := by
  rw [State.commitPosted, State.postHalf_identity]
  exact State.commitWear_identity

omit h in
theorem State.endCommit_eq (o : CommitOutcome) (amount : Word16) (counter : Word32) : s.endCommit p o amount counter =
    (s.commitOf p).tasks.foldl (fun t k => t.complete k o.status
      (commitData p ((s.commitPosted p).pos p) o (s.commitOf p).retries amount counter ((s.commitPosted p).pos p).known))
      (s.commitPosted p) := rfl

theorem State.pos_endCommit (o : CommitOutcome) (amount : Word16) (counter : Word32) :
    (s.endCommit p o amount counter).pos p =
      { (s.pos p).worn (decide (s.knownOf (s.pos p) ≠ c.base)) (s.wearNow (s.pos p)) with
        known := s.knownOf (s.pos p), seq := .idle, commit := none, edition := (s.pos p).edition + 2,
        pulseDirty := false } := by
  have worn := State.pos_commitWear h
  have known : (s.commitWear p).knownOf ((s.commitWear p).pos p) = s.knownOf (s.pos p) :=
    State.knownOf_of_unjudged (congrArg _ State.commitWear_identity) (by rw [worn]; rfl)
  rw [State.endCommit_eq, State.pos_congr (foldl_keeps (·.positions) _ (fun _ _ => State.complete_positions ..) _ _),
    State.commitPosted, State.pos_postHalf, State.pos_modPos]
  dsimp only
  rw [known, worn]
  rfl

omit h in
theorem State.endCommit_identity (o : CommitOutcome) (amount : Word16) (counter : Word32) :
    (s.endCommit p o amount counter).identity = s.identity := by
  rw [State.endCommit_eq]
  exact (foldl_keeps (·.identity) _ (fun _ _ => State.complete_identity ..) _ _).trans State.commitPosted_identity

/-- The one task of a commit ends with the status and the outcome code. -/
theorem State.endCommit_task {k : SlotId} (hk : c.tasks = [k]) (o : CommitOutcome) (amount : Word16) (counter : Word32) :
    (s.endCommit p o amount counter).mem.word (0x1082 + 256 * k.val) = o.status.code ∧
      (s.endCommit p o amount counter).mem.read (0x1085 + 256 * k.val) = o.code := by
  rw [State.endCommit_eq, State.commitOf_of_commit h, hk]
  refine ⟨?_, ?_⟩
  · rw [show 0x1082 + 256 * k.val = slotAddr k + 0x82 by simp only [slotAddr]; omega]
    exact State.complete_status ..
  · rw [show 0x1085 + 256 * k.val = slotAddr k + 0x82 + 3 by simp only [slotAddr]; omega]
    exact State.complete_result _ _ _ _ (by omega)

end

/-- The commit of position `x` has ended in `t`: what it leaves of the usage counts and K, and what its task shows. -/
structure State.CommitEnded (x : Position) (p : PosId) (c : CommitContext) (w : Word64) (t : State) (usage : UsageCounts)
    (known : Nat) (outcome : Byte) : Prop where
  wear : (t.pos p).wear =
    (if t.known w = c.base then x.wear else decide (x.usageLimit ≠ 0 ∧ x.usageLimit.toNat ≤ (t.known w).toNat))
  seq : (t.pos p).seq = .idle
  commit : (t.pos p).commit = none
  usage : (t.pos p).usage = usage
  counter : (t.known w).toNat = known
  posted : (t.pos p).known = t.known w
  cycles : (t.pos p).cycleNumber = x.cycleNumber
  task : ∀ k, c.tasks = [k] → t.mem.word (0x1082 + 256 * k.val) = (if outcome = 6 then 0x30 else 0) ∧
    t.mem.read (0x1085 + 256 * k.val) = outcome

/-- What a commit keeps of the position it runs at, up to its end. -/
structure Position.SameCommit (x y : Position) (c : CommitContext) (w : Word64) : Prop where
  commit : ∃ d, y.commit = some d ∧ d.base = c.base ∧ d.tasks = c.tasks
  uid : y.boundUid = some w
  wear : y.wear = x.wear
  limit : y.usageLimit = x.usageLimit
  cycles : y.cycleNumber = x.cycleNumber

section
variable {x : Position} {p : PosId} {c : CommitContext} {w : Word64} {v : State}
  (h : x.SameCommit (v.pos p) c w)
include h

theorem State.wearNow_of_sameCommit : v.wearNow (v.pos p) =
    decide (x.usageLimit ≠ 0 ∧ x.usageLimit.toNat ≤ (v.known w).toNat) := by
  rw [State.wearNow, State.knownOf, h.uid, h.limit]
  simp

theorem State.commitEnded (o : CommitOutcome) (amount : Word16) (counter : Word32) :
    State.CommitEnded x p c w (v.endCommit p o amount counter) (v.pos p).usage (v.known w).toNat o.code := by
  obtain ⟨d, hd, base, tasks⟩ := h.commit
  have known : (v.endCommit p o amount counter).known w = v.known w :=
    State.known_of_identity (State.endCommit_identity ..) w
  have pos := State.pos_endCommit hd o amount counter
  have wear := State.wearNow_of_sameCommit h
  have knownOf : v.knownOf (v.pos p) = v.known w := by rw [State.knownOf, h.uid]; rfl
  refine ⟨?_, ?_, ?_, ?_, ?_, ?_, ?_, fun k hk => ?_⟩
  · rw [pos, known]
    dsimp only [Position.worn]
    rw [knownOf, wear, h.wear, base]
    by_cases hb : v.known w = c.base <;> simp [hb]
  · rw [pos]
  · rw [pos]
  · rw [pos]; rfl
  · rw [known]
  · rw [pos, known]; exact knownOf
  · rw [pos]; exact h.cycles
  · rw [← CommitOutcome.status_code]
    exact State.endCommit_task hd (tasks.trans hk) o amount counter

/-- Where no result is handed, the end of a commit turns CLEARED into EXPIRED at most (R142). -/
theorem State.commit_kept (o : CommitOutcome) (amount : Word16) (counter : Word32) (hf : (v.pos p).findings = x.findings)
    (hr : (v.pos p).reason = x.reason) (hv : (v.pos p).verdict = x.verdict) :
    let t := v.endCommit p o amount counter
    (t.pos p).findings = x.findings ∧ (t.pos p).reason = x.reason ∧ (t.pos p).verdict =
      if t.known w ≠ c.base ∧ decide (x.usageLimit ≠ 0 ∧ x.usageLimit.toNat ≤ (t.known w).toNat) = true ∧
        x.wear = false ∧ x.verdict = .cleared then .expired else x.verdict := by
  obtain ⟨d, hd, base, -⟩ := h.commit
  have known : (v.endCommit p o amount counter).known w = v.known w :=
    State.known_of_identity (State.endCommit_identity ..) w
  have knownOf : v.knownOf (v.pos p) = v.known w := by rw [State.knownOf, h.uid]; rfl
  intro t
  rw [State.pos_endCommit hd, known]
  refine ⟨hf, hr, ?_⟩
  dsimp only [Position.worn]
  rw [knownOf, State.wearNow_of_sameCommit h, h.wear, base, hv]
  simp only [decide_eq_true_eq]

/-- A part rejected or barred stays so at the end of the commit. -/
theorem State.commit_rejected (o : CommitOutcome) (amount : Word16) (counter : Word32)
    (hf : (v.pos p).findings = 0x0020) (hr : (v.pos p).reason = .none)
    (hv : (v.pos p).verdict = .rejected ∨ (v.pos p).verdict = .barred) :
    let t := v.endCommit p o amount counter
    (t.pos p).findings = 0x0020 ∧ (t.pos p).reason = .none ∧
      ((t.pos p).verdict = .rejected ∨ (t.pos p).verdict = .barred) := by
  obtain ⟨d, hd, -, -⟩ := h.commit
  have cleared : (v.pos p).verdict ≠ .cleared := fun e => by rw [e] at hv; exact hv.elim nofun nofun
  intro t
  rw [State.pos_endCommit hd]
  refine ⟨hf, hr, ?_⟩
  dsimp only [Position.worn]
  rw [if_neg fun e => cleared e.2.2.2]
  exact hv

end

/-! ### K of the bound UID, and the mismatch handed over -/

theorem State.known_raiseKnown {s : State} {w : Word64} {rec : IdentityRecord} (h : s.record w = some rec) (v : Word32) :
    ((s.raiseKnown w v).known w).toNat = max rec.known.toNat v.toNat := by
  have raised : (s.raiseKnown w v).record w = some { rec with known := maxWord rec.known v } :=
    State.record_modRecord h fun _ => rfl
  rw [State.known, raised]
  change (maxWord rec.known v).toNat = _
  unfold maxWord
  split <;> omega

theorem State.known_of_record {s : State} {w : Word64} {rec : IdentityRecord} (h : s.record w = some rec) :
    s.known w = rec.known := by
  rw [State.known, h]
  rfl

/-- The tag has taken the amount: K of the bound UID raised to its counter, committed total risen (R104). -/
def State.amountTaken (s : State) (p : PosId) (v : Word32) : State := (s.raiseBound p v).modPos p Position.takeAmount

section
variable {s : State} {p : PosId} {w : Word64} (hb : (s.pos p).boundUid = some w) (v : Word32)
include hb

theorem State.raiseBound_of_bound : s.raiseBound p v = s.raiseKnown w v := by
  unfold State.raiseBound
  rw [hb]

theorem State.pos_amountTaken : (s.amountTaken p v).pos p = (s.pos p).takeAmount := by
  rw [State.amountTaken, State.pos_modPos, State.raiseBound_of_bound hb]
  rfl

theorem State.known_amountTaken {rec : IdentityRecord} (hr : s.record w = some rec) :
    ((s.amountTaken p v).known w).toNat = max rec.known.toNat v.toNat := by
  rw [← State.known_raiseKnown hr v, ← State.raiseBound_of_bound hb]
  rfl

end

/-- The result of an inconsistency (R106). -/
def State.mismatchResult (s : State) (p : PosId) : Result where
  kind := .findings
  concerned := (s.pos p).boundUid
  findings := fUsageMismatch
  reason := .none
  limits := limitsOf ((s.pos p).boundUid.bind (fun u => (s.record u).bind (fun r => s.classOf r.classCode)))

theorem State.handMismatch_eq (s : State) (p : PosId) : s.handMismatch p = s.handResult p (s.mismatchResult p) := rfl

theorem State.known_handMismatch (s : State) (p : PosId) (w : Word64) : (s.handMismatch p).known w = s.known w :=
  State.known_of_unjudged (s.handResult_records p (s.mismatchResult p)) w

theorem State.pos_handMismatch (s : State) (p : PosId) : (s.handMismatch p).pos p = { s.pos p with
    findings := 0x0020, reason := .none, verdict := ((s.handMismatch p).pos p).verdict,
    doubt := ((s.handMismatch p).pos p).doubt, clean := ((s.handMismatch p).pos p).clean,
    grace := ((s.handMismatch p).pos p).grace } := by
  rw [State.handMismatch_eq, State.handResult_pos]
  exact State.applyResult_own s p (s.mismatchResult p)

theorem State.handMismatch_verdict (s : State) (p : PosId) :
    ((s.handMismatch p).pos p).verdict = .rejected ∨ ((s.handMismatch p).pos p).verdict = .barred := by
  rw [State.handMismatch_eq, State.handResult_pos]
  exact State.applyResult_verdict_of_immediate s p (s.mismatchResult p) (show fUsageMismatch &&& 0x00FF ≠ 0 by decide)

/-! ### How a commit is settled -/

/-- A commit ends without a result: what it leaves of the position's findings and verdict (R142). -/
structure State.CommitKept (x : Position) (p : PosId) (c : CommitContext) (w : Word64) (t : State) : Prop where
  findings : (t.pos p).findings = x.findings
  reason : (t.pos p).reason = x.reason
  verdict : (t.pos p).verdict =
    if t.known w ≠ c.base ∧ decide (x.usageLimit ≠ 0 ∧ x.usageLimit.toNat ≤ (t.known w).toNat) = true ∧
      x.wear = false ∧ x.verdict = .cleared then .expired else x.verdict

/-- A commit ends with USAGE_MISMATCH handed (R106). -/
structure State.CommitMismatched (p : PosId) (t : State) : Prop where
  findings : (t.pos p).findings = 0x0020
  reason : (t.pos p).reason = .none
  verdict : (t.pos p).verdict = .rejected ∨ (t.pos p).verdict = .barred

section
variable {x : Position} {p : PosId} {c : CommitContext} {w : Word64} {v : State} {y : Position} {usage : UsageCounts}
  {known : Nat} (hy : v.pos p = y) (h : x.SameCommit y c w) (hu : y.usage = usage) (hk : (v.known w).toNat = known)
  (o : CommitOutcome) (amount : Word16) (counter : Word32)
include hy h hu hk

theorem State.settles_kept (hf : y.findings = x.findings) (hr : y.reason = x.reason) (hv : y.verdict = x.verdict) :
    State.CommitEnded x p c w (v.endCommit p o amount counter) usage known o.code ∧
      State.CommitKept x p c w (v.endCommit p o amount counter) := by
  subst hy hu hk
  obtain ⟨findings, reason, verdict⟩ := State.commit_kept h o amount counter hf hr hv
  exact ⟨State.commitEnded h o amount counter, findings, reason, verdict⟩

theorem State.settles_mismatched :
    State.CommitEnded x p c w ((v.handMismatch p).endCommit p o amount counter) usage known o.code ∧
      State.CommitMismatched p ((v.handMismatch p).endCommit p o amount counter) := by
  subst hy hu hk
  have handed := v.pos_handMismatch p
  have same : x.SameCommit ((v.handMismatch p).pos p) c w := by
    rw [handed]
    exact ⟨h.commit, h.uid, h.wear, h.limit, h.cycles⟩
  have counts : ((v.handMismatch p).pos p).usage = (v.pos p).usage := by rw [handed]; rfl
  obtain ⟨findings, reason, verdict⟩ := State.commit_rejected same o amount counter (by rw [handed]) (by rw [handed])
    (v.handMismatch_verdict p)
  have ended := State.commitEnded same o amount counter
  rw [counts, v.known_handMismatch p w] at ended
  exact ⟨ended, findings, reason, verdict⟩

end

/-! ### The tag's answers, case by case -/

theorem sumsTo_iff (k : Word32) (a : Word16) (v : Word32) : sumsTo k a v = true ↔ v.toNat = k.toNat + a.toNat :=
  decide_eq_true_iff

section
variable {s : State} {p : PosId} {c : CommitContext} {w : Word64} {rec : IdentityRecord} (hs : (s.pos p).seq = .commit)
  (hc : (s.pos p).commit = some c) (hb : (s.pos p).boundUid = some w) (hr : s.record w = some rec)
include hc

theorem State.addRetries_eq (n : Nat) : s.addRetries p n =
    s.setPos p { s.pos p with commit := some { c with retries := c.retries + n } } := by
  rw [State.addRetries, State.modPos_eq, hc]
  rfl

theorem State.pos_addRetries (n : Nat) : (s.addRetries p n).pos p =
    { s.pos p with commit := some { c with retries := c.retries + n } } := by
  rw [State.addRetries_eq hc, State.pos_setPos]

/-- The counter the tag reports, judged against base and amount (R104, R107). -/
theorem State.judgeCounter_addRetries (n : Nat) (v : Word32) (fromRead : Bool) :
    (s.addRetries p n).judgeCounter p v fromRead =
      if v.toNat = c.base.toNat + (s.pos p).inFlight.toNat then
        ((s.addRetries p n).amountTaken p v).endCommit p .committed (s.pos p).inFlight v
      else if fromRead = true ∧ v = c.base then
        ((s.addRetries p n).modPos p Position.returnAmount).endCommit p .returned (s.pos p).inFlight v
      else (((s.addRetries p n).amountTaken p v).handMismatch p).endCommit p .mismatch (s.pos p).inFlight v := by
  have pos := State.pos_addRetries hc n
  have base : ((s.addRetries p n).commitOf p).base = c.base := by
    rw [State.commitOf_of_commit (c := { c with retries := c.retries + n }) (by rw [pos])]
  have amount : ((s.addRetries p n).pos p).inFlight = (s.pos p).inFlight := by rw [pos]
  unfold State.judgeCounter
  dsimp only
  rw [base, amount]
  simp only [sumsTo_iff]
  rfl

variable (n : Nat) (v : Word32) (fromRead : Bool)
include hb hr

/-- The counter is the sum: COMMITTED. -/
theorem State.judged_committed (h : v.toNat = c.base.toNat + (s.pos p).inFlight.toNat) :
    let t := (s.addRetries p n).judgeCounter p v fromRead
    State.CommitEnded (s.pos p) p c w t
      { (s.pos p).usage with committed := (s.pos p).committed + (s.pos p).inFlight.setWidth 32, inFlight := 0 }
      (max rec.known.toNat v.toNat) 1 ∧ State.CommitKept (s.pos p) p c w t := by
  have uid : ((s.addRetries p n).pos p).boundUid = some w := by rw [State.pos_addRetries hc]; exact hb
  have pos := (State.pos_amountTaken uid v).trans (congrArg Position.takeAmount (State.pos_addRetries hc n))
  have known := State.known_amountTaken uid v (rec := rec) (by rw [State.addRetries_eq hc]; exact hr)
  rw [State.judgeCounter_addRetries hc, if_pos h]
  exact State.settles_kept (x := s.pos p) (c := c) pos ⟨⟨_, rfl, rfl, rfl⟩, hb, rfl, rfl, rfl⟩ rfl known
    .committed _ _ rfl rfl rfl

/-- The counter is neither: MISMATCH. -/
theorem State.judged_mismatch (h : v.toNat ≠ c.base.toNat + (s.pos p).inFlight.toNat)
    (hn : ¬ (fromRead = true ∧ v = c.base)) :
    let t := (s.addRetries p n).judgeCounter p v fromRead
    State.CommitEnded (s.pos p) p c w t
      { (s.pos p).usage with committed := (s.pos p).committed + (s.pos p).inFlight.setWidth 32, inFlight := 0 }
      (max rec.known.toNat v.toNat) 2 ∧ State.CommitMismatched p t := by
  have uid : ((s.addRetries p n).pos p).boundUid = some w := by rw [State.pos_addRetries hc]; exact hb
  have pos := (State.pos_amountTaken uid v).trans (congrArg Position.takeAmount (State.pos_addRetries hc n))
  have known := State.known_amountTaken uid v (rec := rec) (by rw [State.addRetries_eq hc]; exact hr)
  rw [State.judgeCounter_addRetries hc, if_neg h, if_neg hn]
  exact State.settles_mismatched (x := s.pos p) (c := c) pos ⟨⟨_, rfl, rfl, rfl⟩, hb, rfl, rfl, rfl⟩ rfl known
    .mismatch _ _

omit hb in
/-- A change of the position alone leaves K as its record has it. -/
theorem State.known_modPos_addRetries (f : Position → Position) :
    (((s.addRetries p n).modPos p f).known w).toNat = rec.known.toNat := by
  rw [State.known_of_record (rec := rec) (by rw [State.addRetries_eq hc]; exact hr)]

theorem State.judged_returned (h : v.toNat ≠ c.base.toNat + (s.pos p).inFlight.toNat) (hv : v = c.base) :
    let t := (s.addRetries p n).judgeCounter p v true
    State.CommitEnded (s.pos p) p c w t
      { (s.pos p).usage with
        pendingUse := BitVec.ofNat 16 (min 65535 ((s.pos p).pendingUse.toNat + (s.pos p).inFlight.toNat))
        dropped := (s.pos p).dropped + BitVec.ofNat 32 ((s.pos p).pendingUse.toNat + (s.pos p).inFlight.toNat - 65535)
        inFlight := 0 }
      rec.known.toNat 5 ∧ State.CommitKept (s.pos p) p c w t := by
  have pos := ((s.addRetries p n).pos_modPos p Position.returnAmount).trans
    (congrArg Position.returnAmount (State.pos_addRetries hc n))
  rw [State.judgeCounter_addRetries hc, if_neg h, if_pos ⟨rfl, hv⟩]
  exact State.settles_kept (x := s.pos p) (c := c) pos ⟨⟨_, rfl, rfl, rfl⟩, hb, rfl, rfl, rfl⟩ rfl
    (State.known_modPos_addRetries hc hr n _) .returned _ _ rfl rfl rfl

theorem State.limit_settles (amount : Word16) :
    let t := ((s.addRetries p n).modPos p Position.loseAmount).endCommit p .limit amount 0
    State.CommitEnded (s.pos p) p c w t
      { (s.pos p).usage with lost := (s.pos p).lost + (s.pos p).inFlight.setWidth 32, inFlight := 0 } rec.known.toNat 3 ∧
      State.CommitKept (s.pos p) p c w t := by
  have pos := ((s.addRetries p n).pos_modPos p Position.loseAmount).trans
    (congrArg Position.loseAmount (State.pos_addRetries hc n))
  exact State.settles_kept (x := s.pos p) (c := c) pos ⟨⟨_, rfl, rfl, rfl⟩, hb, rfl, rfl, rfl⟩ rfl
    (State.known_modPos_addRetries hc hr n _) .limit _ _ rfl rfl rfl

theorem State.tagStatus_settles (amount : Word16) :
    let t := (((s.addRetries p n).modPos p Position.loseAmount).handMismatch p).endCommit p .tagStatus amount 0
    State.CommitEnded (s.pos p) p c w t
      { (s.pos p).usage with lost := (s.pos p).lost + (s.pos p).inFlight.setWidth 32, inFlight := 0 } rec.known.toNat 4 ∧
      State.CommitMismatched p t := by
  have pos := ((s.addRetries p n).pos_modPos p Position.loseAmount).trans
    (congrArg Position.loseAmount (State.pos_addRetries hc n))
  exact State.settles_mismatched (x := s.pos p) (c := c) pos ⟨⟨_, rfl, rfl, rfl⟩, hb, rfl, rfl, rfl⟩ rfl
    (State.known_modPos_addRetries hc hr n _) .tagStatus _ _

end

/-- The confirm read gives no counter: UNCONFIRMED, the amount stays in flight (R108). -/
theorem State.leaveUnconfirmed_settles {x : Position} {p : PosId} {c : CommitContext} {w : Word64} {v : State}
    {y : Position} {known : Nat} (hy : v.pos p = y) (h : x.SameCommit y c w) (hu : y.usage = x.usage)
    (hk : (v.known w).toNat = known) (hf : y.findings = x.findings) (hr : y.reason = x.reason)
    (hv : y.verdict = x.verdict) :
    State.CommitEnded x p c w (v.leaveUnconfirmed p) { x.usage with unconfirmed := true } known 6 ∧
      State.CommitKept x p c w (v.leaveUnconfirmed p) ∧
      ((v.leaveUnconfirmed p).pos p).lastLineError = y.lastLineError := by
  have pos : (v.modPos p (fun x => { x with unconfirmed := true })).pos p = { y with unconfirmed := true } := by
    rw [State.pos_modPos, hy]
  have same : x.SameCommit { y with unconfirmed := true } c w := ⟨h.commit, h.uid, h.wear, h.limit, h.cycles⟩
  obtain ⟨ended, kept⟩ := State.settles_kept pos same (usage := { x.usage with unconfirmed := true })
    (by rw [← hu]; rfl) hk .unconfirmed (v.pos p).inFlight 0 hf hr hv
  obtain ⟨d, hd, -, -⟩ := h.commit
  refine ⟨ended, kept, ?_⟩
  rw [State.leaveUnconfirmed, State.pos_endCommit (c := d) (by rw [pos]; exact hd), pos]
  rfl

/-! ### The obligation -/

section
variable {s : State} {p : PosId} {c : CommitContext} (hs : (s.pos p).seq = .commit) (hc : (s.pos p).commit = some c)
include hs hc

theorem State.positionLine_addUsage_reply (hd : c.confirming = false) (st : Byte) (data : List Byte) (ratio : Word16)
    (n : Nat) : s.positionLine p (.reply st data ratio n) = s.addUsageReply p st data n := by
  have stage : (s.commitOf p).confirming = false := by rw [State.commitOf_of_commit hc, hd]
  unfold State.positionLine
  simp only [hs, stage]

theorem State.positionLine_confirm_reply (hd : c.confirming = true) (st : Byte) (data : List Byte) (ratio : Word16)
    (n : Nat) : s.positionLine p (.reply st data ratio n) = s.confirmReply p st data n := by
  have stage : (s.commitOf p).confirming = true := by rw [State.commitOf_of_commit hc, hd]
  unfold State.positionLine
  simp only [hs, stage]

end

/-- ADD_USAGE failed off a STUCK line: the confirm read follows (R107). -/
theorem State.addUsageFailed_of_line {s : State} {p : PosId} {c : CommitContext} (hc : (s.pos p).commit = some c)
    (hl : (s.line (s.pos p).applied.line).state ≠ .stuck) (e : LineError) (n : Nat) :
    s.addUsageFailed p e n = (s.setPos p { s.pos p with
      lastLineError := some e
      commit := some { c with confirming := true, retries := c.retries + n } }).placeLine (s.pos p).applied.line
        { requester := .position p, address := (s.pos p).applied.address, command := .readBlocks 5 1 } := by
  have failed : (s.addRetries p n).modPos p (fun x =>
      { x with lastLineError := some e, commit := x.commit.map (fun c => { c with confirming := true }) }) =
      s.setPos p { s.pos p with
        lastLineError := some e, commit := some { c with confirming := true, retries := c.retries + n } } := by
    rw [State.addRetries_eq hc, State.modPos_setPos]
    rfl
  have free : ¬ (s.setPos p { s.pos p with
      lastLineError := some e
      commit := some { c with confirming := true, retries := c.retries + n } }).onStuckLine p = true := by
    rw [State.onStuckLine, State.line_setPos, State.pos_setPos]
    exact fun stuck => hl (of_decide_eq_true stuck)
  unfold State.addUsageFailed
  dsimp only
  rw [failed, if_neg free, State.placeFor, State.requestOf, State.pos_setPos]
  rfl

/-- Settles O58: each answer and failure by the settlement it makes. -/
theorem commitSettled : Obligations.CommitSettled := by
  intro s p c w rec hs hc hb hr x amount given lost sum back due ended kept mismatch higher reply
  have ends {t : State} {usage : UsageCounts} {known : Nat} {o : Byte} (h : State.CommitEnded x p c w t usage known o) :
      ended t usage known o := ⟨h.wear, h.seq, h.commit, h.usage, h.counter, h.posted, h.cycles, h.task⟩
  have keeps {t : State} (h : State.CommitKept x p c w t) : kept t := ⟨h.findings, h.reason, h.verdict⟩
  have mismatches {t : State} (h : State.CommitMismatched p t) : mismatch t := ⟨h.findings, h.reason, h.verdict⟩
  have same (n : Nat) (e : Option LineError) :
      x.SameCommit { x with commit := some { c with retries := c.retries + n }, lastLineError := e } c w :=
    ⟨⟨_, rfl, rfl, rfl⟩, hb, rfl, rfl, rfl⟩
  have known (n : Nat) : (((s.addRetries p n).known w)).toNat = rec.known.toNat := by
    rw [State.known_of_record (rec := rec) (by rw [State.addRetries_eq hc]; exact hr)]
  refine ⟨fun hd data ratio n => ⟨fun h => ?_, fun h => ?_⟩, fun hd data ratio n => ?_,
    fun hd status data ratio n h0 h5 => ?_, fun hd hl e n => ?_,
    fun hd data ratio n h1 => ⟨fun h => ?_, fun h hv => ?_, fun h hv => ?_⟩, fun hd status data ratio n h0 => ?_,
    fun hd e n => ?_⟩
  · have replied : reply 0 data ratio n = (s.addRetries p n).judgeCounter p (word32At data 0) false :=
      State.positionLine_addUsage_reply hs hc hd ..
    obtain ⟨he, hk⟩ := State.judged_committed hc hb hr n (word32At data 0) false h
    rw [replied]
    exact ⟨ends he, keeps hk⟩
  · have replied : reply 0 data ratio n = (s.addRetries p n).judgeCounter p (word32At data 0) false :=
      State.positionLine_addUsage_reply hs hc hd ..
    obtain ⟨he, hm⟩ := State.judged_mismatch hc hb hr n (word32At data 0) false h (fun e => Bool.false_ne_true e.1)
    rw [replied]
    exact ⟨ends he, mismatches hm⟩
  · have replied : reply 5 data ratio n =
        ((s.addRetries p n).modPos p Position.loseAmount).endCommit p .limit amount 0 :=
      State.positionLine_addUsage_reply hs hc hd ..
    obtain ⟨he, hk⟩ := State.limit_settles hc hb hr n amount
    dsimp only
    rw [replied]
    exact ⟨ends he, keeps hk⟩
  · have replied : reply status data ratio n =
        (((s.addRetries p n).modPos p Position.loseAmount).handMismatch p).endCommit p .tagStatus amount 0 :=
      (State.positionLine_addUsage_reply hs hc hd ..).trans ((if_neg h0).trans (if_neg h5))
    obtain ⟨he, hm⟩ := State.tagStatus_settles hc hb hr n amount
    dsimp only
    rw [replied]
    exact ⟨ends he, mismatches hm⟩
  · rw [State.positionLine_addUsage hs (by rw [State.commitOf_of_commit hc, hd]), State.addUsageFailed_of_line hc hl]
  · have replied : reply 0 data ratio n = (s.addRetries p n).judgeCounter p (word32At data 1) true :=
      (State.positionLine_confirm_reply hs hc hd ..).trans (if_pos ⟨rfl, h1⟩)
    obtain ⟨he, hk⟩ := State.judged_committed hc hb hr n (word32At data 1) true h
    rw [replied]
    exact ⟨ends he, keeps hk⟩
  · have replied : reply 0 data ratio n = (s.addRetries p n).judgeCounter p (word32At data 1) true :=
      (State.positionLine_confirm_reply hs hc hd ..).trans (if_pos ⟨rfl, h1⟩)
    obtain ⟨he, hk⟩ := State.judged_returned hc hb hr n (word32At data 1) h hv
    rw [replied]
    exact ⟨ends he, keeps hk⟩
  · have replied : reply 0 data ratio n = (s.addRetries p n).judgeCounter p (word32At data 1) true :=
      (State.positionLine_confirm_reply hs hc hd ..).trans (if_pos ⟨rfl, h1⟩)
    obtain ⟨he, hm⟩ := State.judged_mismatch hc hb hr n (word32At data 1) true h (fun e => hv e.2)
    rw [replied]
    exact ⟨ends he, mismatches hm⟩
  · have replied : reply status data ratio n = (s.addRetries p n).leaveUnconfirmed p :=
      (State.positionLine_confirm_reply hs hc hd ..).trans (if_neg fun e => h0 e.1)
    obtain ⟨he, hk, -⟩ := State.leaveUnconfirmed_settles (State.pos_addRetries hc n) (same n x.lastLineError) rfl
      (known n) rfl rfl rfl
    dsimp only
    rw [replied]
    exact ⟨ends he, keeps hk⟩
  · have failed : s.positionLine p (.failure e n) =
        ((s.addRetries p n).modPos p (fun x => { x with lastLineError := some e })).leaveUnconfirmed p :=
      State.positionLine_confirm hs (by rw [State.commitOf_of_commit hc, hd]) e n
    have pos := ((s.addRetries p n).pos_modPos p (fun x => { x with lastLineError := some e })).trans
      (congrArg (fun x : Position => { x with lastLineError := some e }) (State.pos_addRetries hc n))
    obtain ⟨he, hk, hl⟩ := State.leaveUnconfirmed_settles pos (same n (some e)) rfl (known n) rfl rfl rfl
    dsimp only
    rw [failed]
    exact ⟨ends he, keeps hk, hl⟩
end Sys2Proof.Machine
end
section
/-! SUPPORT. The checks of a cycle (R20, R56 to R62), the resolution of an UNCONFIRMED commit (R109, R111), and the
screening groups (R149, R150): each part on its own. -/
namespace Sys2Proof.Machine

/-! ### Findings as sets -/

theorem getLsbD_withFinding (set : Word16) (b : Bool) (f : Word16) (i : Nat) :
    (withFinding set b f).getLsbD i = (set.getLsbD i || b && f.getLsbD i) := by
  cases b <;> simp [withFinding]

@[simp] theorem withFinding_false (set f : Word16) : withFinding set false f = set := rfl

@[simp] theorem withFinding_true (set f : Word16) : withFinding set true f = set ||| f := rfl

/-- A finding below bit 8 is immediate. -/
theorem hasAny_immediate_of_bit {f : Word16} {i : Nat} (hi : i < 8) (h : f.getLsbD i = true) :
    hasAny f immediateMask = true := by
  have mask : ∀ i < 8, immediateMask.getLsbD i = true := by decide
  rw [hasAny_iff]
  intro e
  have bit := congrArg (BitVec.getLsbD · i) e
  simp only [BitVec.getLsbD_and, h, mask i hi] at bit
  exact absurd bit (by simp)

/-! ### Format (R20, R56) -/

theorem uidWellFormed_iff (u : Word64) : uidWellFormed u = true ↔
    ((List.range 15).map (fun i => u.toNat / 16 ^ (i + 1) % 16)).sum % 16 = u.toNat / 16 ^ 0 % 16 := by
  unfold uidWellFormed
  rw [decide_eq_true_eq]

theorem formatFindings_of_few {c : CycleContext} (h : c.n < 2) : formatFindings c = 0x0002 := if_pos h

theorem formatFindings_of_blocks {c : CycleContext} (h : 2 ≤ c.n) : formatFindings c =
    withFinding (withFinding 0 (!uidWellFormed (tagUid c.blocks)) 0x0001) (decide (c.n < 7)) 0x0002 :=
  if_neg (Nat.not_lt.2 h)

/-! ### The resolution of an UNCONFIRMED commit (R109) -/

/-- The commit resolved: the amount settled by `f`, the mark gone, the wear flag evaluated. -/
def State.resolvedWith (s : State) (p : PosId) (f : Position → Position) : State :=
  (s.modPos p (fun x => { f x with unconfirmed := false })).evaluateWear p

section
variable {s : State} {p : PosId} {u : Word64} {v : Word32}

theorem State.resolveCommit_of_confirmed (h : (s.pos p).unconfirmed = false) : s.resolveCommit p u v = (s, 0) := if_pos h

variable (h : (s.pos p).unconfirmed = true)
include h

theorem State.resolveCommit_eq : s.resolveCommit p u v =
    if v.toNat = (s.known u).toNat + (s.pos p).inFlight.toNat then
      ((s.raiseKnown u v).resolvedWith p Position.takeAmount, 0)
    else if v = s.known u then (s.resolvedWith p Position.returnAmount, 0)
    else ((s.raiseKnown u v).resolvedWith p Position.takeAmount, 0x0020) := by
  unfold State.resolveCommit
  simp only [h, Bool.true_eq_false, if_false, sumsTo_iff]
  rfl

end

theorem State.pos_resolvedWith (s : State) (p : PosId) (f : Position → Position) : (s.resolvedWith p f).pos p =
    { f (s.pos p) with
      unconfirmed := false, wear := (s.resolvedWith p f).wearNow { f (s.pos p) with unconfirmed := false } } := by
  rw [State.resolvedWith, State.pos_evaluateWear, State.pos_modPos]
  rfl

theorem State.known_resolvedWith (s : State) (p : PosId) (f : Position → Position) (w : Word64) :
    (s.resolvedWith p f).known w = s.known w := rfl

/-- A resolution finds USAGE_MISMATCH or nothing. -/
theorem State.resolveCommit_finding (s : State) (p : PosId) (u : Word64) (v : Word32) :
    (s.resolveCommit p u v).2 = 0 ∨ (s.resolveCommit p u v).2 = 0x0020 := by
  cases h : (s.pos p).unconfirmed with
  | false => rw [State.resolveCommit_of_confirmed h]; exact .inl rfl
  | true =>
    rw [State.resolveCommit_eq h]
    (repeat' split)
    · exact .inl rfl
    · exact .inl rfl
    · exact .inr rfl

/-! ### Screening (R149, R150) -/

/-- The rule's value is there, of the rule's class, and inside or outside its bounds. -/
theorem Rule.isMatch_iff (r : Rule) (i : ScreenInputs) : r.isMatch i = true ↔
    ∃ v, i.value r.quantity = some v ∧ (r.classCode = 0 ∨ r.classCode = i.classCode) ∧
      (r.sense = .inside → r.lo.toInt ≤ v ∧ v ≤ r.hi.toInt) ∧ (r.sense = .outside → v < r.lo.toInt ∨ r.hi.toInt < v) := by
  unfold Rule.isMatch
  cases i.value r.quantity with
  | none => simp
  | some v =>
    simp only [Bool.and_eq_true, decide_eq_true_eq, Option.some.injEq, exists_eq_left']
    cases r.sense with
    | inside =>
      simp only [Sense.holds, decide_eq_true_eq, true_implies, reduceCtorEq, false_implies, and_true]
      exact and_comm
    | outside =>
      simp only [Sense.holds, decide_eq_true_eq, true_implies, reduceCtorEq, false_implies, true_and]
      exact and_comm

theorem groupFires_iff (rules : List Rule) (g : Fin 4) (i : ScreenInputs) : groupFires rules g i = true ↔
    (∃ r ∈ rules, r.enabled = true ∧ r.group = g) ∧
      ∀ r ∈ rules, r.enabled = true → r.group = g → r.isMatch i = true := by
  unfold groupFires
  simp only [Bool.and_eq_true, Bool.not_eq_true', List.isEmpty_eq_false_iff_exists_mem, List.mem_filter,
    decide_eq_true_eq, List.all_eq_true, and_imp]

theorem fScreen_getLsbD (g : Fin 4) (i : Nat) (hi : i < 16) : (fScreen g).getLsbD i = decide (i = 12 + g.val) := by
  revert g i
  decide

theorem getLsbD_screenFindings (rules : List Rule) (i : ScreenInputs) {b : Nat} (hb : b < 16) :
    (screenFindings rules i).getLsbD b = decide (∃ g : Fin 4, groupFires rules g i = true ∧ b = 12 + g.val) := by
  have bits : ∀ (l : List (Fin 4)) (f : Word16),
      (l.foldl (fun f g => withFinding f (groupFires rules g i) (fScreen g)) f).getLsbD b =
        (f.getLsbD b || decide (∃ g ∈ l, groupFires rules g i = true ∧ b = 12 + g.val)) := fun l => by
    induction l with
    | nil => simp
    | cons g l ih =>
      intro f
      rw [List.foldl_cons, ih, getLsbD_withFinding, fScreen_getLsbD g b hb]
      rw [Bool.eq_iff_iff]
      simp only [Bool.or_eq_true, Bool.and_eq_true, decide_eq_true_eq, List.mem_cons, or_and_right,
        exists_or, exists_eq_left, or_assoc]
  rw [screenFindings, bits]
  simp

/-! ### The identity settled (R57, R15, R111, R120) -/

/-- The tag of the cycle's context sighted from position `p`. -/
def State.seen (s : State) (p : PosId) (c : CycleContext) : State :=
  s.sight p (tagUid c.blocks) (tagClass c.blocks) (tagCounter c.blocks)

/-- The binding ended where there is one. -/
def State.released (s : State) (p : PosId) (t : State) : State := if (s.pos p).boundUid = none then t else t.endBinding p

/-- The position with the class code and the usage limit of the tag. -/
def Position.tagged (x : Position) (c : CycleContext) : Position :=
  { x with classCode := tagClass c.blocks, usageLimit := if x.boundUid = none then 0 else tagLimit c.blocks }

section
variable {s : State} {p : PosId} {c : CycleContext} (hc : (s.pos p).cycle = some c)
include hc

theorem State.checks_of_whole (h : formatFindings c = 0) : s.checks p = (s.settleIdentity p).runChecks p := by
  rw [State.checks, State.context_of_cycle hc]
  exact if_pos h

theorem State.checks_of_failed (h : formatFindings c ≠ 0) : s.checks p = s.formatFailed p (formatFindings c) := by
  rw [State.checks, State.context_of_cycle hc]
  exact if_neg h

/-- The bound UID shown intact keeps the binding. -/
theorem State.formatFailed_of_kept (f : Word16) (h : 2 ≤ c.n ∧ (s.pos p).boundUid = some (tagUid c.blocks)) :
    s.formatFailed p f = (s.setPos p { s.pos p with
      classCode := ((s.record (tagUid c.blocks)).map (fun r => r.classCode)).getD 0 }).endCycle p .findings f .none
        Limits.noClass := by
  unfold State.formatFailed
  dsimp only
  rw [State.context_of_cycle hc]
  simp only [h.1, h.2, decide_true, Bool.and_self, if_true]
  rfl

/-- Any other binding departs. -/
theorem State.formatFailed_of_lost (f : Word16) (h : ¬ (2 ≤ c.n ∧ (s.pos p).boundUid = some (tagUid c.blocks))) :
    s.formatFailed p f = ((s.released p (s.leaveContests p none)).modPos p (fun x =>
      { x with uid := .none, classCode := 0 })).endCycle p .findings f .none Limits.noClass := by
  have lost : ¬ ((decide (2 ≤ c.n) && decide ((s.pos p).boundUid = some (tagUid c.blocks))) = true) := by
    simpa using h
  unfold State.formatFailed
  dsimp only
  rw [State.context_of_cycle hc, if_neg lost]
  rfl

/-- The bound UID again: no arrival. -/
theorem State.settleIdentity_again (h : (s.pos p).boundUid = some (tagUid c.blocks)) : s.settleIdentity p =
    ((s.leaveContests p (some (tagUid c.blocks))).seen p c).modPos p (fun x => x.tagged c) := by
  have pos : (s.leaveContests p (some (tagUid c.blocks))).pos p = s.pos p := rfl
  unfold State.settleIdentity
  dsimp only
  rw [State.context_of_cycle hc, pos]
  simp only [h, ne_eq, not_true_eq_false, decide_false, Bool.false_eq_true, false_and, if_false]
  rfl

/-- Any other UID arrives. -/
theorem State.settleIdentity_arrival (h : (s.pos p).boundUid ≠ some (tagUid c.blocks)) : s.settleIdentity p =
    ((((s.released p (s.leaveContests p (some (tagUid c.blocks)))).seen p c).modPos p (fun x => x.tagged c)).modPos p
      (fun x => { x.settle .arriving with grace := x.refill })).evaluatePermits := by
  have pos : (s.leaveContests p (some (tagUid c.blocks))).pos p = s.pos p := rfl
  unfold State.settleIdentity
  dsimp only
  rw [State.context_of_cycle hc, pos]
  simp only [h, ne_eq, not_false_eq_true, decide_true, true_and, if_true]
  rw [State.released]
  by_cases hn : (s.pos p).boundUid = none
  · simp only [hn, not_true_eq_false, if_false, if_true]
    rfl
  · simp only [hn, not_false_eq_true, if_false, if_true]
    rfl

end

/-! ### What settling the identity keeps -/

/-- What an identity settled at position `p` keeps of the work and of the tables. -/
structure State.Settles (p : PosId) (s t : State) : Prop where
  seq : (t.pos p).seq = (s.pos p).seq
  cycle : (t.pos p).cycle = (s.pos p).cycle
  applied : (t.pos p).applied = (s.pos p).applied
  retired : t.retired = s.retired
  classes : t.classes = s.classes
  keys : t.keys = s.keys
  line : ∀ l, t.line l = s.line l

namespace State.Settles
variable {p : PosId} {s t u : State}

theorem trans (h : State.Settles p s t) (h' : State.Settles p t u) : State.Settles p s u :=
  ⟨h'.seq.trans h.seq, h'.cycle.trans h.cycle, h'.applied.trans h.applied, h'.retired.trans h.retired,
    h'.classes.trans h.classes, h'.keys.trans h.keys, fun l => (h'.line l).trans (h.line l)⟩

theorem modPos (s : State) {f : Position → Position} (hs : (f (s.pos p)).seq = (s.pos p).seq)
    (hc : (f (s.pos p)).cycle = (s.pos p).cycle) (ha : (f (s.pos p)).applied = (s.pos p).applied) :
    State.Settles p s (s.modPos p f) := by
  refine ⟨?_, ?_, ?_, rfl, rfl, rfl, fun l => s.line_modPos p f l⟩
  all_goals rw [State.pos_modPos]
  · exact hs
  · exact hc
  · exact ha

theorem leaveContests (s : State) (k : Option Word64) : State.Settles p s (s.leaveContests p k) :=
  ⟨rfl, rfl, rfl, rfl, rfl, rfl, fun l => by cases l <;> rfl⟩

theorem endBinding (s : State) : State.Settles p s (s.endBinding p) where
  seq := by rw [State.pos_endBinding]; rfl
  cycle := by rw [State.pos_endBinding]; rfl
  applied := by rw [State.pos_endBinding]; rfl
  retired := State.endBinding_retired ..
  classes := congrArg Frame.classes (State.frame_endBinding s p)
  keys := congrArg Frame.keys (State.frame_endBinding s p)
  line := State.endBinding_line s p

theorem released (s t : State) : State.Settles p t (s.released p t) := by
  unfold State.released
  split
  · exact ⟨rfl, rfl, rfl, rfl, rfl, rfl, fun _ => rfl⟩
  · exact endBinding t

theorem setUid (s : State) (u : UidHeld) : State.Settles p s (s.setUid p u) := modPos s rfl rfl rfl

theorem sight (s : State) (u : Word64) (cls : Word16) (c : Word32) : State.Settles p s (s.sight p u cls c) := by
  have placed (v : State) (r : IdentityRecord) (h : UidHeld) : State.Settles p v ((v.placeRecordLast r).setUid p h) :=
    trans (t := v.placeRecordLast r) ⟨rfl, rfl, rfl, rfl, rfl, rfl, fun l => by cases l <;> rfl⟩ (setUid _ h)
  have touched (v : State) (r : IdentityRecord) (h : UidHeld) :
      State.Settles p v (((v.placeRecordLast r).touchBlock).setUid p h) :=
    trans (t := (v.placeRecordLast r).touchBlock) ⟨rfl, rfl, rfl, rfl, rfl, rfl, fun l => by cases l <;> rfl⟩ (setUid _ h)
  have room : State.Settles p s s.makeRoom := by
    unfold State.makeRoom
    split <;> exact ⟨rfl, rfl, rfl, rfl, rfl, rfl, fun l => by cases l <;> rfl⟩
  unfold State.sight
  (repeat' split)
  · exact room.trans (touched _ _ _)
  · exact touched _ _ _
  · exact placed _ _ _
  · exact placed _ _ _

theorem evaluatePermits (s : State) : State.Settles p s s.evaluatePermits := by
  have pos : s.evaluatePermits.pos p = s.pos p := State.pos_congr (State.evaluatePermits_positions s) p
  have frame := State.frame_evaluatePermits s
  exact ⟨by rw [pos], by rw [pos], by rw [pos], State.evaluatePermits_retired s, congrArg Frame.classes frame,
    congrArg Frame.keys frame, State.evaluatePermits_line s⟩

theorem tagged (s : State) (c : CycleContext) : State.Settles p s (s.modPos p (fun x => x.tagged c)) :=
  modPos s rfl rfl rfl

end State.Settles

theorem State.settleIdentity_settles {s : State} {p : PosId} {c : CycleContext} (hc : (s.pos p).cycle = some c) :
    State.Settles p s (s.settleIdentity p) := by
  by_cases h : (s.pos p).boundUid = some (tagUid c.blocks)
  · rw [State.settleIdentity_again hc h]
    exact ((State.Settles.leaveContests s _).trans (State.Settles.sight _ _ _ _)).trans (State.Settles.tagged _ c)
  · rw [State.settleIdentity_arrival hc h]
    exact (((((State.Settles.leaveContests s _).trans (State.Settles.released s _)).trans
      (State.Settles.sight _ _ _ _)).trans (State.Settles.tagged _ c)).trans (State.Settles.modPos _ rfl rfl rfl)).trans
      (State.Settles.evaluatePermits _)

end Sys2Proof.Machine
end
section
/-! SUPPORT. The record and the UID held once the identity is settled (R57, R112 to R115). -/
namespace Sys2Proof.Machine

/-! ### Records under changes that keep their UIDs -/

theorem State.record_of_map {s t : State} {f : IdentityRecord → IdentityRecord} (h : t.identity = s.identity.map f)
    (hf : ∀ a, (f a).uid = a.uid) (u : Word64) : t.record u = (s.record u).map f := by
  have uids : (fun a : IdentityRecord => decide (a.uid = u)) ∘ f = fun a => decide (a.uid = u) :=
    funext fun a => by simp only [Function.comp, hf]
  rw [State.record, h, List.find?_map, uids]
  rfl

theorem State.record_leaveContests_keep (s : State) (p : PosId) (u : Word64) :
    (s.leaveContests p (some u)).record u = s.record u := by
  have left := State.record_of_map (t := s.leaveContests p (some u)) (s := s) rfl
    (fun a => by split <;> rfl) u
  rw [left]
  cases h : s.record u with
  | none => rfl
  | some r => rw [Option.map_some, State.record_uid h, if_pos rfl]

theorem IdentityRecord.freedFrom_uid (p : PosId) (r : IdentityRecord) : (r.freedFrom p).uid = r.uid := by
  unfold IdentityRecord.freedFrom
  split <;> rfl

theorem State.record_endBinding (s : State) (p : PosId) (u : Word64) (h : ∀ r, s.record u = some r → r.bound ≠ some p) :
    (s.endBinding p).record u = s.record u := by
  have identity : (s.endBinding p).identity = if (s.pos p).boundUid ≠ none then
      s.identity.map (IdentityRecord.freedFrom p) else s.identity := by
    rw [State.endBinding_identity, State.dropBinding_eq]
  by_cases hb : (s.pos p).boundUid = none
  · rw [if_neg (not_not_intro hb)] at identity
    rw [State.record, identity, State.record]
  · rw [if_pos hb] at identity
    rw [State.record_of_map identity (IdentityRecord.freedFrom_uid p)]
    cases hr : s.record u with
    | none => rfl
    | some r => rw [Option.map_some, IdentityRecord.freedFrom, if_neg (h r hr)]

theorem State.record_released (s t : State) (p : PosId) (u : Word64) (h : ∀ r, t.record u = some r → r.bound ≠ some p) :
    (s.released p t).record u = t.record u := by
  unfold State.released
  split
  · rfl
  · exact State.record_endBinding t p u h

theorem State.record_placeRecordLast (s : State) (r : IdentityRecord) : (s.placeRecordLast r).record r.uid = some r := by
  have gone : (s.identity.filter (fun x => decide (x.uid ≠ r.uid))).find? (fun x => decide (x.uid = r.uid)) = none := by
    rw [List.find?_eq_none]
    intro x hx
    simpa using (List.mem_filter.1 hx).2
  rw [State.placeRecordLast, State.record, List.find?_append, gone]
  simp

/-! ### The sighting -/

section
variable {b : State} {p : PosId} {c : CycleContext}

theorem State.pos_setUid (s : State) (u : UidHeld) : (s.setUid p u).pos p = { s.pos p with uid := u } := s.pos_modPos p _

theorem State.seen_of_none (h : b.record (tagUid c.blocks) = none) :
    (b.seen p c).pos p = { b.pos p with uid := .bound (tagUid c.blocks) } ∧
      ∃ r, (b.seen p c).record (tagUid c.blocks) = some r ∧ r.contest = [] := by
  have room : b.makeRoom.positions = b.positions := by
    unfold State.makeRoom
    split <;> rfl
  have same (r : IdentityRecord) : ((b.makeRoom.placeRecordLast r).touchBlock).pos p = b.pos p := State.pos_congr room p
  have placed := State.record_placeRecordLast b.makeRoom
    { uid := tagUid c.blocks, classCode := tagClass c.blocks, bound := some p, known := tagCounter c.blocks, rejects := 0,
      contest := [] }
  rw [State.seen, State.sight_of_none h, State.pos_setUid, same]
  exact ⟨rfl, _, placed, rfl⟩

theorem State.seen_of_unbound {r : IdentityRecord} (h : b.record (tagUid c.blocks) = some r) (hb : r.bound = none) :
    (b.seen p c).pos p = { b.pos p with uid := .bound (tagUid c.blocks) } ∧
      (b.seen p c).record (tagUid c.blocks) = some { r with bound := some p, classCode := tagClass c.blocks } := by
  rw [State.seen, State.sight_of_unbound h hb, ← State.record_uid h]
  exact ⟨State.pos_setUid .., State.record_placeRecordLast b { r with bound := some p, classCode := tagClass c.blocks }⟩

theorem State.seen_of_own {r : IdentityRecord} (h : b.record (tagUid c.blocks) = some r) (hb : r.bound = some p) :
    (b.seen p c).pos p = { b.pos p with uid := .bound (tagUid c.blocks) } ∧
      (b.seen p c).record (tagUid c.blocks) = some { r with classCode := tagClass c.blocks } := by
  rw [State.seen, State.sight_of_own h hb, ← State.record_uid h]
  exact ⟨State.pos_setUid .., State.record_placeRecordLast b { r with classCode := tagClass c.blocks }⟩

theorem State.seen_of_other {r : IdentityRecord} {q : PosId} (h : b.record (tagUid c.blocks) = some r)
    (hb : r.bound = some q) (hq : q ≠ p) :
    (b.seen p c).pos p = { b.pos p with uid := .read (tagUid c.blocks) } := by
  rw [State.seen, State.sight_of_other h hb hq]
  exact State.pos_setUid ..

end

/-! ### The state before the sighting, and the settled position -/

/-- The contests left, and the old binding ended at an arrival: what the sighting meets. -/
def State.beforeSighting (s : State) (p : PosId) (c : CycleContext) : State :=
  if (s.pos p).boundUid = some (tagUid c.blocks) then s.leaveContests p (some (tagUid c.blocks))
  else s.released p (s.leaveContests p (some (tagUid c.blocks)))

section
variable {s : State} {p : PosId} {c : CycleContext}

/-- A record that is not that of the binding ended is as it was. -/
theorem State.record_beforeSighting (h : (s.pos p).boundUid = some (tagUid c.blocks) ∨
    ∀ r, s.record (tagUid c.blocks) = some r → r.bound ≠ some p) :
    (s.beforeSighting p c).record (tagUid c.blocks) = s.record (tagUid c.blocks) := by
  have left := s.record_leaveContests_keep p (tagUid c.blocks)
  unfold State.beforeSighting
  split
  case isTrue => exact left
  case isFalse hn =>
    rcases h with h | h
    · exact absurd h hn
    · rw [State.record_released _ _ _ _ (by rw [left]; exact h), left]

theorem State.pos_beforeSighting_again (h : (s.pos p).boundUid = some (tagUid c.blocks)) :
    (s.beforeSighting p c).pos p = s.pos p := by
  rw [State.beforeSighting, if_pos h]
  rfl

/-- An arrival leaves no UNCONFIRMED commit that was not there. -/
theorem State.beforeSighting_confirmed (h : (s.pos p).unconfirmed = false) :
    ((s.beforeSighting p c).pos p).unconfirmed = false := by
  unfold State.beforeSighting State.released
  split
  · exact h
  · split
    · exact h
    · rw [State.pos_endBinding]; rfl

variable (hc : (s.pos p).cycle = some c)
include hc

theorem State.settleIdentity_identity : (s.settleIdentity p).identity = ((s.beforeSighting p c).seen p c).identity := by
  by_cases h : (s.pos p).boundUid = some (tagUid c.blocks)
  · rw [State.settleIdentity_again hc h, State.beforeSighting, if_pos h]
    rfl
  · rw [State.settleIdentity_arrival hc h, State.beforeSighting, if_neg h, State.evaluatePermits_identity]
    rfl

theorem State.record_settleIdentity (u : Word64) :
    (s.settleIdentity p).record u = ((s.beforeSighting p c).seen p c).record u := by
  rw [State.record, State.settleIdentity_identity hc]
  rfl

/-- The UID held and the usage counts are as the sighting left them. -/
theorem State.pos_settleIdentity (v : Position) (hv : ((s.beforeSighting p c).seen p c).pos p = v) :
    ((s.settleIdentity p).pos p).uid = v.uid ∧ ((s.settleIdentity p).pos p).unconfirmed = v.unconfirmed ∧
      ((s.settleIdentity p).pos p).inFlight = v.inFlight := by
  by_cases h : (s.pos p).boundUid = some (tagUid c.blocks)
  · rw [State.beforeSighting, if_pos h] at hv
    rw [State.settleIdentity_again hc h, State.pos_modPos, hv]
    exact ⟨rfl, rfl, rfl⟩
  · rw [State.beforeSighting, if_neg h] at hv
    rw [State.settleIdentity_arrival hc h, State.pos_congr (State.evaluatePermits_positions _), State.pos_modPos,
      State.pos_modPos, hv]
    exact ⟨rfl, rfl, rfl⟩

/-- The bound UID again keeps the verdict. -/
theorem State.settleIdentity_verdict (h : (s.pos p).boundUid = some (tagUid c.blocks)) :
    ((s.settleIdentity p).pos p).verdict = (((s.beforeSighting p c).seen p c).pos p).verdict := by
  rw [State.settleIdentity_again hc h, State.beforeSighting, if_pos h, State.pos_modPos]
  rfl

end

/-- Position `p` is bound to the tag's UID, whose record is `r`. -/
structure State.Identified (p : PosId) (c : CycleContext) (t : State) (r : IdentityRecord) : Prop where
  uid : (t.pos p).boundUid = some (tagUid c.blocks)
  record : t.record (tagUid c.blocks) = some r

section
variable {s : State} {p : PosId} {c : CycleContext} (hc : (s.pos p).cycle = some c)
include hc

theorem State.identified_of_seen {r : IdentityRecord}
    (hp : (((s.beforeSighting p c).seen p c).pos p).uid = .bound (tagUid c.blocks))
    (hr : ((s.beforeSighting p c).seen p c).record (tagUid c.blocks) = some r) :
    State.Identified p c (s.settleIdentity p) r := by
  refine ⟨?_, (State.record_settleIdentity hc _).trans hr⟩
  rw [Position.boundUid, (State.pos_settleIdentity hc _ rfl).1, hp]

/-- A UID without a record is bound with a fresh one. -/
theorem State.settled_of_none (h : s.record (tagUid c.blocks) = none) :
    ∃ r, State.Identified p c (s.settleIdentity p) r ∧ r.contest = [] := by
  have before := (State.record_beforeSighting (s := s) (p := p) (c := c) (.inr fun r hr => by
    rw [h] at hr; cases hr)).trans h
  obtain ⟨pos, r, hr, hn⟩ := State.seen_of_none (p := p) before
  exact ⟨r, State.identified_of_seen hc (by rw [pos]) hr, hn⟩

/-- A free record is bound. -/
theorem State.settled_of_unbound {r : IdentityRecord} (h : s.record (tagUid c.blocks) = some r) (hb : r.bound = none) :
    State.Identified p c (s.settleIdentity p) { r with bound := some p, classCode := tagClass c.blocks } := by
  have before := (State.record_beforeSighting (s := s) (p := p) (c := c) (.inr fun a ha => by
    rw [h] at ha; cases ha; rw [hb]; exact nofun)).trans h
  obtain ⟨pos, hr⟩ := State.seen_of_unbound (p := p) before hb
  exact State.identified_of_seen hc (by rw [pos]) hr

/-- The binding's own record stays bound. -/
theorem State.settled_of_own {r : IdentityRecord} (h : s.record (tagUid c.blocks) = some r) (hb : r.bound = some p)
    (hx : (s.pos p).boundUid = some (tagUid c.blocks)) :
    State.Identified p c (s.settleIdentity p) { r with classCode := tagClass c.blocks } := by
  have before := (State.record_beforeSighting (s := s) (p := p) (c := c) (.inl hx)).trans h
  obtain ⟨pos, hr⟩ := State.seen_of_own (p := p) before hb
  exact State.identified_of_seen hc (by rw [pos]) hr

/-- With the bound UID again the position keeps its commit and its verdict. -/
theorem State.settled_own_pos {r : IdentityRecord} (h : s.record (tagUid c.blocks) = some r) (hb : r.bound = some p)
    (hx : (s.pos p).boundUid = some (tagUid c.blocks)) :
    ((s.settleIdentity p).pos p).unconfirmed = (s.pos p).unconfirmed ∧
      ((s.settleIdentity p).pos p).inFlight = (s.pos p).inFlight ∧
      ((s.settleIdentity p).pos p).verdict = (s.pos p).verdict := by
  have before := (State.record_beforeSighting (s := s) (p := p) (c := c) (.inl hx)).trans h
  obtain ⟨pos, -⟩ := State.seen_of_own (p := p) before hb
  have verdict := State.settleIdentity_verdict hc hx
  rw [pos, State.pos_beforeSighting_again hx] at verdict
  rw [State.pos_beforeSighting_again hx] at pos
  obtain ⟨-, unconfirmed, inFlight⟩ := State.pos_settleIdentity hc _ pos
  exact ⟨unconfirmed, inFlight, verdict⟩

/-- A UID bound elsewhere is read, and contested. -/
theorem State.settled_of_other {r : IdentityRecord} {q : PosId} (h : s.record (tagUid c.blocks) = some r)
    (hb : r.bound = some q) (hq : q ≠ p) : ((s.settleIdentity p).pos p).uid = .read (tagUid c.blocks) := by
  have before := (State.record_beforeSighting (s := s) (p := p) (c := c) (.inr fun a ha => by
    rw [h] at ha; cases ha; rw [hb]; exact fun e => hq (Option.some.inj e))).trans h
  exact (State.pos_settleIdentity hc _ (State.seen_of_other (p := p) before hb hq)).1

/-- Settling the identity makes no commit UNCONFIRMED. -/
theorem State.settleIdentity_confirmed (h : (s.pos p).unconfirmed = false) :
    ((s.settleIdentity p).pos p).unconfirmed = false := by
  have before := State.beforeSighting_confirmed (p := p) (c := c) h
  have seen : (((s.beforeSighting p c).seen p c).pos p).unconfirmed = ((s.beforeSighting p c).pos p).unconfirmed := by
    cases hr : (s.beforeSighting p c).record (tagUid c.blocks) with
    | none => rw [(State.seen_of_none (p := p) hr).1]
    | some r =>
      cases hb : r.bound with
      | none => rw [(State.seen_of_unbound (p := p) hr hb).1]
      | some q =>
        by_cases hq : q = p
        · rw [(State.seen_of_own (p := p) hr (hb.trans (congrArg some hq))).1]
        · rw [State.seen_of_other (p := p) hr hb hq]
  exact ((State.pos_settleIdentity hc _ rfl).2.1.trans seen).trans before

end
end Sys2Proof.Machine
end
section
/-! SUPPORT. The checks and their decision (R58 to R63): the findings by their bits, and how the cycle goes on. -/
namespace Sys2Proof.Machine

/-! ### Before the hand-off (R147) -/

theorem State.releasePosition_records (s : State) (p : PosId) (u : Word64) :
    (s.releasePosition p u).identity.map IdentityRecord.unjudged = s.identity.map IdentityRecord.unjudged := by
  have raised := (State.Judges.modRecord (p := p) (s.unretire u) u (fun _ => 0)).records
  rw [State.releasePosition, State.postHalf_identity, State.evaluatePermits_identity]
  exact raised

theorem State.removalAtHead_records {s t : State} {p : PosId} {u : Word64} (h : s.removalAtHead p u = some t) :
    t.identity.map IdentityRecord.unjudged = s.identity.map IdentityRecord.unjudged := by
  obtain ⟨k, r, hr, ht⟩ := State.removalAtHead_cases h
  have taken : r.identity = s.identity := by
    rcases s.takeReady_cases with e | ⟨j, rest, -, e⟩ <;> rw [e] at hr
    · cases hr
    · obtain ⟨-, rfl⟩ := Prod.mk.inj (Option.some.inj hr); rfl
  rw [← taken]
  rcases ht with rfl | rfl
  · unfold State.releaseHeld State.postIfRetiredChanged
    rw [State.complete_identity]
    split <;> exact State.releasePosition_records r p u
  · unfold State.removeUid
    split
    · rw [State.complete_identity]; rfl
    · rw [State.complete_identity]; exact State.releasePosition_records r _ u

theorem State.beforeHandOff_records (s : State) (p : PosId) :
    (s.beforeHandOff p).identity.map IdentityRecord.unjudged = s.identity.map IdentityRecord.unjudged := by
  rcases s.beforeHandOff_cases p with e | e | ⟨u, t, -, ht, e⟩
  · rw [e]
  · rw [e]; rfl
  · have removed := State.removalAtHead_records ht
    rw [e]
    exact removed

theorem State.beforeHandOff_of_unbound {s : State} {p : PosId} (h : (s.pos p).boundUid = none) :
    s.beforeHandOff p = s := by
  unfold State.beforeHandOff
  rw [h]

/-! ### A conclusive end with findings -/

section
variable (s : State) (p : PosId) (f : Word16) (lim : Limits)

theorem State.pos_endFindings : ∃ (c : CycleContext) (known : Word32), (s.endFindings p f lim).pos p =
    { ((s.judged p .findings f .none lim).pos p).recordCycle c known with
      edition := ((s.judged p .findings f .none lim).pos p).edition + 2, pulseDirty := false } := by
  have pos := s.pos_endCycle p .findings f .none lim
  dsimp only at pos
  rw [State.handResult_pos] at pos
  exact ⟨_, _, pos⟩

theorem State.endFindings_ends : ((s.endFindings p f lim).pos p).findings = f ∧
    ((s.endFindings p f lim).pos p).seq = .idle ∧ ((s.endFindings p f lim).pos p).uid = (s.pos p).uid := by
  obtain ⟨c, known, pos⟩ := s.pos_endFindings p f lim
  rw [pos, State.pos_judged]
  exact ⟨rfl, rfl, rfl⟩

theorem State.endFindings_verdict (h : hasAny f immediateMask = true) :
    ((s.endFindings p f lim).pos p).verdict = .rejected ∨ ((s.endFindings p f lim).pos p).verdict = .barred := by
  obtain ⟨c, known, pos⟩ := s.pos_endFindings p f lim
  rw [pos]
  exact State.applyResult_verdict_of_immediate (s.evaluateWear p) p (s.cycleResult p .findings f .none lim)
    ((hasAny_iff _ _).1 h)

end

/-! ### The decision (R62, R63) -/

/-- The cycle's hand-off after an immediate finding. -/
def State.immediateEnd (s : State) (p : PosId) (f : Word16) (copy : Option ClassRecord) : State :=
  (if hasAny f fRetired then s.beforeHandOff p else s).endFindings p f (limitsOf copy)

section
variable {s : State} {p : PosId} {f : Word16} {copy : Option ClassRecord}

theorem State.decideChecks_of_immediate (h : hasAny f immediateMask = true) :
    s.decideChecks p f copy = s.immediateEnd p f copy := if_pos h

theorem State.decideChecks_of_none (h : ¬ hasAny f immediateMask = true) :
    s.decideChecks p f none = s.endInconclusive p .noClass := if_neg h

theorem State.decideChecks_of_class {k : ClassRecord} (h : ¬ hasAny f immediateMask = true) :
    s.decideChecks p f (some k) = s.enterChallenge p k := if_neg h

theorem State.enterChallenge_of_no_key {k : ClassRecord} (h : ¬ (s.keys.slots[k.keySlot.val]).isValid = true) :
    s.enterChallenge p k = s.endInconclusive p .noKey := by
  unfold State.enterChallenge
  cases hk : s.keys.slots[k.keySlot.val] with
  | empty => rfl
  | invalid => rfl
  | valid key => rw [hk] at h; exact absurd rfl h

/-- The cycle with its challenge drawn (R63). -/
def State.challenged (s : State) (p : PosId) (c : CycleContext) : State :=
  s.draw.setPos p { s.pos p with cycle := some { c with stage := .challenge, challenge := some (Config.noise s.free) } }

theorem State.pos_challenged (s : State) (p : PosId) (c : CycleContext) : (s.challenged p c).pos p =
    { s.pos p with cycle := some { c with stage := .challenge, challenge := some (Config.noise s.free) } } :=
  State.pos_setPos ..

variable {c : CycleContext} (hc : (s.pos p).cycle = some c)
include hc

theorem State.enterChallenge_of_key {k : ClassRecord} (h : (s.keys.slots[k.keySlot.val]).isValid = true) :
    s.enterChallenge p k =
      if (s.line (s.pos p).applied.line).state = .stuck then (s.challenged p c).challengeFailed p .stuck
      else (s.challenged p c).placeLine (s.pos p).applied.line
        { requester := .position p, address := (s.pos p).applied.address,
          command := .challenge (Config.noise s.free) } := by
  have drawn : s.draw.modContext p (fun c => { c with stage := .challenge, challenge := some (Config.noise s.free) }) =
      s.challenged p c := State.modContext_of_cycle (s := s.draw) hc _
  have stuck : (s.challenged p c).onStuckLine p = decide ((s.line (s.pos p).applied.line).state = .stuck) := by
    rw [State.onStuckLine, State.pos_challenged, State.challenged, State.line_setPos]
    rfl
  unfold State.enterChallenge
  cases hk : s.keys.slots[k.keySlot.val] with
  | empty => rw [hk] at h; exact Bool.noConfusion h
  | invalid => rw [hk] at h; exact Bool.noConfusion h
  | valid key =>
    dsimp only
    rw [drawn, stuck, State.placeFor, State.requestOf, State.pos_challenged]
    simp only [decide_eq_true_eq]
    rfl

/-- A decided cycle that has ended shows the immediate findings, or none. -/
theorem State.decideChecks_findings (hs : (s.pos p).seq = .cycle)
    (hi : ((s.decideChecks p f copy).pos p).seq = .idle) :
    (hasAny f immediateMask = true ∧ ((s.decideChecks p f copy).pos p).findings = f) ∨
      ((s.decideChecks p f copy).pos p).findings = 0 := by
  by_cases h : hasAny f immediateMask = true
  · rw [State.decideChecks_of_immediate h, State.immediateEnd]
    exact .inl ⟨h, (State.endFindings_ends ..).1⟩
  · refine .inr ?_
    cases copy with
    | none => rw [State.decideChecks_of_none h, State.pos_endInconclusive _ hc]
    | some k =>
      rw [State.decideChecks_of_class h] at hi ⊢
      by_cases hv : (s.keys.slots[k.keySlot.val]).isValid = true
      · rw [State.enterChallenge_of_key hc hv] at hi ⊢
        by_cases hl : (s.line (s.pos p).applied.line).state = .stuck
        · rw [if_pos hl, State.challengeFailed_eq, State.pos_endInconclusive
            (c := { c with stage := .challenge, challenge := some (Config.noise s.free) }) _
            (by rw [State.pos_setPos, State.pos_challenged])]
        · rw [if_neg hl, State.pos_congr (State.placeLine_positions ..), State.pos_challenged] at hi
          exact absurd (hs.symm.trans hi) SeqState.noConfusion
      · rw [State.enterChallenge_of_no_key hv, State.pos_endInconclusive _ hc]

omit hc in
theorem State.placeLine_identity (s : State) (l : LineId) (r : LineRequest) : (s.placeLine l r).identity = s.identity := by
  by_cases h : (s.line l).state = .quiet
  · rw [State.placeLine_of_quiet r h]; simp
  · rw [State.placeLine_of_not_quiet r h]; simp

/-- The decision moves nothing of the records but reject counts. -/
theorem State.decideChecks_records : (s.decideChecks p f copy).identity.map IdentityRecord.unjudged =
    s.identity.map IdentityRecord.unjudged := by
  have handed : ∀ v : State, (v.endFindings p f (limitsOf copy)).identity.map IdentityRecord.unjudged =
      v.identity.map IdentityRecord.unjudged := fun v => State.endCycle_records ..
  by_cases h : hasAny f immediateMask = true
  · rw [State.decideChecks_of_immediate h, State.immediateEnd, handed]
    split
    · exact s.beforeHandOff_records p
    · rfl
  · cases copy with
    | none => rw [State.decideChecks_of_none h, State.endInconclusive_identity]
    | some k =>
      rw [State.decideChecks_of_class h]
      by_cases hv : (s.keys.slots[k.keySlot.val]).isValid = true
      · rw [State.enterChallenge_of_key hc hv]
        split
        · rw [State.challengeFailed_eq, State.endInconclusive_identity]; rfl
        · rw [State.placeLine_identity]; rfl
      · rw [State.enterChallenge_of_no_key hv, State.endInconclusive_identity]

end

/-! ### The findings of the checks -/

/-- An UNCONFIRMED commit of the bound UID resolved, with the finding (R60, R109). -/
def State.resolved (s : State) (p : PosId) (c : CycleContext) : State × Word16 :=
  if decide ((s.pos p).boundUid = some (tagUid c.blocks)) = true then
    s.resolveCommit p (tagUid c.blocks) (tagCounter c.blocks)
  else (s, 0)

/-- The tag's clock ratio lies outside the band of its class (R61). -/
def CycleContext.offBand (c : CycleContext) : Option ClassRecord → Bool
  | none => false
  | some k => decide (c.ratio.toNat < k.bandLo.toNat ∨ k.bandHi.toNat < c.ratio.toNat)

/-- The findings of the checks (R58 to R61). -/
def State.found (s : State) (p : PosId) (c : CycleContext) : Word16 :=
  withFinding (withFinding (withFinding (withFinding (withFinding 0 (decide (tagUid c.blocks ∈ s.retired)) fRetired)
    (s.contested p (tagUid c.blocks)) fDuplicate) (!decide (tagClass c.blocks ∈ (s.pos p).applied.accept)) fClass |||
    (s.resolved p c).2)
    (decide ((s.pos p).boundUid = some (tagUid c.blocks)) &&
      decide ((tagCounter c.blocks).toNat < ((s.resolved p c).1.known (tagUid c.blocks)).toNat)) fRegression)
    (c.offBand (s.classOf (tagClass c.blocks))) fClock

/-- The state in which the checks are decided: the commit resolved, class copy and findings in the context. -/
def State.checksDone (s : State) (p : PosId) (c : CycleContext) : State :=
  (s.resolved p c).1.modContext p
    (fun e => { e with classCopy := s.classOf (tagClass c.blocks), findings := s.found p c })

section
variable {s : State} {p : PosId} {c : CycleContext}

theorem State.runChecks_eq (hc : (s.pos p).cycle = some c) : s.runChecks p =
    (s.checksDone p c).decideChecks p (s.found p c) (s.classOf (tagClass c.blocks)) := by
  unfold State.runChecks
  rw [State.context_of_cycle hc]
  rfl

theorem State.resolved_finding (s : State) (p : PosId) (c : CycleContext) :
    (s.resolved p c).2 = 0 ∨ (s.resolved p c).2 = 0x0020 := by
  unfold State.resolved
  split
  · exact State.resolveCommit_finding ..
  · exact .inl rfl

/-- The findings bit by bit. -/
theorem State.found_getLsbD (s : State) (p : PosId) (c : CycleContext) :
    (s.found p c).getLsbD 2 = decide (tagUid c.blocks ∈ s.retired) ∧
    (s.found p c).getLsbD 3 = s.contested p (tagUid c.blocks) ∧
    (s.found p c).getLsbD 4 = !decide (tagClass c.blocks ∈ (s.pos p).applied.accept) ∧
    (s.found p c).getLsbD 5 = (s.resolved p c).2.getLsbD 5 ∧
    (s.found p c).getLsbD 6 = (decide ((s.pos p).boundUid = some (tagUid c.blocks)) &&
      decide ((tagCounter c.blocks).toNat < ((s.resolved p c).1.known (tagUid c.blocks)).toNat)) ∧
    (s.found p c).getLsbD 8 = c.offBand (s.classOf (tagClass c.blocks)) := by
  unfold State.found
  rcases s.resolved_finding p c with e | e <;> rw [e] <;>
    simp [-BitVec.getLsbD_eq_getElem, getLsbD_withFinding, fRetired, fDuplicate, fClass, fRegression, fClock]

end
end Sys2Proof.Machine
end
section
/-! PROOFS. What the checks of a cycle find, and how it goes on (R20, R56 to R65, R109, R149, R150). -/
namespace Sys2Proof.Machine

/-! ### The state in which the checks are decided -/

section
variable {s : State} {p : PosId} {c : CycleContext}

theorem State.resolved_of_confirmed (h : (s.pos p).unconfirmed = false) : s.resolved p c = (s, 0) := by
  unfold State.resolved
  split
  · exact State.resolveCommit_of_confirmed h
  · rfl

theorem State.resolved_of_unbound (h : (s.pos p).boundUid ≠ some (tagUid c.blocks)) : s.resolved p c = (s, 0) :=
  if_neg fun e => h (of_decide_eq_true e)

theorem State.resolved_of_bound (h : (s.pos p).boundUid = some (tagUid c.blocks)) :
    s.resolved p c = s.resolveCommit p (tagUid c.blocks) (tagCounter c.blocks) := if_pos (decide_eq_true h)

/-- What a resolution keeps: the work, the tables, the UID held and the verdict. -/
structure State.Resolves (p : PosId) (s t : State) : Prop extends State.Settles p s t where
  uid : (t.pos p).uid = (s.pos p).uid
  verdict : (t.pos p).verdict = (s.pos p).verdict

theorem State.resolvedWith_resolves (s : State) {f : Position → Position} (hs : ∀ x, (f x).seq = x.seq)
    (hc : ∀ x, (f x).cycle = x.cycle) (ha : ∀ x, (f x).applied = x.applied) (hu : ∀ x, (f x).uid = x.uid)
    (hv : ∀ x, (f x).verdict = x.verdict) : State.Resolves p s (s.resolvedWith p f) := by
  have pos := s.pos_resolvedWith p f
  refine ⟨⟨?_, ?_, ?_, rfl, rfl, rfl, fun l => by cases l <;> rfl⟩, ?_, ?_⟩ <;> rw [pos]
  · exact hs _
  · exact hc _
  · exact ha _
  · exact hu _
  · exact hv _

theorem State.resolved_resolves (s : State) (p : PosId) (c : CycleContext) : State.Resolves p s (s.resolved p c).1 := by
  have same : State.Resolves p s s := ⟨⟨rfl, rfl, rfl, rfl, rfl, rfl, fun _ => rfl⟩, rfl, rfl⟩
  have taken (v : State) : State.Resolves p v (v.resolvedWith p Position.takeAmount) :=
    State.resolvedWith_resolves v (fun _ => rfl) (fun _ => rfl) (fun _ => rfl) (fun _ => rfl) fun _ => rfl
  have raised (w : Word64) (n : Word32) : State.Resolves p s ((s.raiseKnown w n).resolvedWith p Position.takeAmount) := by
    obtain ⟨⟨a, b, c, d, e, f, g⟩, h, i⟩ := taken (s.raiseKnown w n)
    exact ⟨⟨a, b, c, d, e, f, fun l => (g l).trans (by cases l <;> rfl)⟩, h, i⟩
  by_cases hb : (s.pos p).boundUid = some (tagUid c.blocks)
  · rw [State.resolved_of_bound hb]
    cases h : (s.pos p).unconfirmed with
    | false => rw [State.resolveCommit_of_confirmed h]; exact same
    | true =>
      rw [State.resolveCommit_eq h]
      (repeat' split)
      · exact raised _ _
      · exact State.resolvedWith_resolves s (fun _ => rfl) (fun _ => rfl) (fun _ => rfl) (fun _ => rfl) fun _ => rfl
      · exact raised _ _
  · rw [State.resolved_of_unbound hb]
    exact same

/-- The context in which the checks are decided. -/
def State.decidedContext (s : State) (p : PosId) (c : CycleContext) : CycleContext :=
  { c with classCopy := s.classOf (tagClass c.blocks), findings := s.found p c }

variable (hc : (s.pos p).cycle = some c)
include hc

theorem State.checksDone_eq : s.checksDone p c = (s.resolved p c).1.setPos p
    { (s.resolved p c).1.pos p with cycle := some (s.decidedContext p c) } :=
  State.modContext_of_cycle ((s.resolved_resolves p c).cycle.trans hc) _

theorem State.pos_checksDone : (s.checksDone p c).pos p =
    { (s.resolved p c).1.pos p with cycle := some (s.decidedContext p c) } := by
  rw [State.checksDone_eq hc, State.pos_setPos]

theorem State.checksDone_cycle : ((s.checksDone p c).pos p).cycle = some (s.decidedContext p c) := by
  rw [State.pos_checksDone hc]

theorem State.checksDone_seq : ((s.checksDone p c).pos p).seq = (s.pos p).seq := by
  rw [State.pos_checksDone hc]
  exact (s.resolved_resolves p c).seq

theorem State.checksDone_uid : ((s.checksDone p c).pos p).uid = (s.pos p).uid := by
  rw [State.pos_checksDone hc]
  exact (s.resolved_resolves p c).uid

theorem State.checksDone_verdict : ((s.checksDone p c).pos p).verdict = (s.pos p).verdict := by
  rw [State.pos_checksDone hc]
  exact (s.resolved_resolves p c).verdict

theorem State.checksDone_applied : ((s.checksDone p c).pos p).applied = (s.pos p).applied := by
  rw [State.pos_checksDone hc]
  exact (s.resolved_resolves p c).applied

theorem State.checksDone_keys : (s.checksDone p c).keys = s.keys := by
  rw [State.checksDone_eq hc]
  exact (s.resolved_resolves p c).keys

theorem State.checksDone_line (l : LineId) : (s.checksDone p c).line l = s.line l := by
  rw [State.checksDone_eq hc, State.line_setPos]
  exact (s.resolved_resolves p c).line l

/-- An immediate finding ends the cycle with all that was found, and rejects or bars the part. -/
theorem State.runChecks_of_bit {i : Nat} (hi : i < 8) (h : (s.found p c).getLsbD i = true) :
    ((s.runChecks p).pos p).findings = s.found p c ∧ ((s.runChecks p).pos p).seq = .idle ∧
      (((s.runChecks p).pos p).verdict = .rejected ∨ ((s.runChecks p).pos p).verdict = .barred) := by
  have immediate := hasAny_immediate_of_bit hi h
  rw [State.runChecks_eq hc, State.decideChecks_of_immediate immediate, State.immediateEnd]
  obtain ⟨findings, seq, -⟩ := State.endFindings_ends (if hasAny (s.found p c) fRetired then
    (s.checksDone p c).beforeHandOff p else s.checksDone p c) p (s.found p c) (limitsOf (s.classOf (tagClass c.blocks)))
  exact ⟨findings, seq, State.endFindings_verdict _ p _ _ immediate⟩

/-- A position without a binding keeps the UID it read to the end. -/
theorem State.runChecks_uid {i : Nat} (hi : i < 8) (h : (s.found p c).getLsbD i = true) {u : Word64}
    (hu : (s.pos p).uid = .read u) : ((s.runChecks p).pos p).uid = .read u := by
  have held := (State.checksDone_uid hc).trans hu
  have unbound : ((s.checksDone p c).pos p).boundUid = none := by rw [Position.boundUid, held]
  rw [State.runChecks_eq hc, State.decideChecks_of_immediate (hasAny_immediate_of_bit hi h), State.immediateEnd,
    State.beforeHandOff_of_unbound unbound, ite_self]
  exact (State.endFindings_ends ..).2.2.trans held

/-- A cycle that ends in the checks shows what was found, or nothing. -/
theorem State.runChecks_findings (hs : (s.pos p).seq = .cycle) (hi : ((s.runChecks p).pos p).seq = .idle) :
    ((s.runChecks p).pos p).findings = s.found p c ∨ ((s.runChecks p).pos p).findings = 0 := by
  rw [State.runChecks_eq hc] at hi ⊢
  exact (State.decideChecks_findings (State.checksDone_cycle hc) ((State.checksDone_seq hc).trans hs) hi).imp
    (fun h => h.2) id

theorem State.runChecks_known (u : Word64) : (s.runChecks p).known u = (s.resolved p c).1.known u := by
  have records := State.decideChecks_records (p := p) (f := s.found p c) (copy := s.classOf (tagClass c.blocks))
    (State.checksDone_cycle hc)
  rw [State.runChecks_eq hc, State.known_of_unjudged records, State.checksDone_eq hc]
  rfl

end

/-! ### An identified part -/

theorem State.Identified.contested {p : PosId} {c : CycleContext} {t : State} {r : IdentityRecord}
    (h : State.Identified p c t r) : t.contested p (tagUid c.blocks) = !r.contest.isEmpty := by
  unfold State.contested
  rw [h.uid, h.record]
  rfl

theorem State.Identified.known {p : PosId} {c : CycleContext} {t : State} {r : IdentityRecord}
    (h : State.Identified p c t r) : t.known (tagUid c.blocks) = r.known := State.known_of_record h.record

/-- REGRESSION, where no commit is UNCONFIRMED. -/
theorem State.Identified.regression {p : PosId} {c : CycleContext} {t : State} {r : IdentityRecord}
    (h : State.Identified p c t r) (hu : (t.pos p).unconfirmed = false) :
    (t.found p c).getLsbD 6 = decide ((tagCounter c.blocks).toNat < r.known.toNat) := by
  obtain ⟨-, -, -, -, bit, -⟩ := t.found_getLsbD p c
  rw [bit, State.resolved_of_confirmed hu, h.known, h.uid]
  simp

/-- Where nothing immediate is found only CLOCK may be. -/
theorem State.Identified.found_clear {p : PosId} {c : CycleContext} {t : State} {r : IdentityRecord}
    (h : State.Identified p c t r) (hu : (t.pos p).unconfirmed = false) (hn : r.contest = [])
    (hr : tagUid c.blocks ∉ t.retired) (ha : tagClass c.blocks ∈ (t.pos p).applied.accept)
    (hk : r.known.toNat ≤ (tagCounter c.blocks).toNat) :
    t.found p c = if c.offBand (t.classOf (tagClass c.blocks)) = true then 0x0100 else 0 := by
  unfold State.found
  rw [State.resolved_of_confirmed hu, h.contested, h.known, hn]
  simp [hr, ha, Nat.not_lt.2 hk, withFinding, fClock]

end Sys2Proof.Machine
end
section
/-! PROOFS. The findings of a cycle, part by part (R20, R56 to R65, R109, R149, R150). -/
namespace Sys2Proof.Machine

/-! ### Through the whole checks -/

section
variable {s : State} {p : PosId} {c : CycleContext} (hc : (s.pos p).cycle = some c) (hf : formatFindings c = 0)
include hc

/-- The context stands once the identity is settled. -/
theorem State.settled_cycle : ((s.settleIdentity p).pos p).cycle = some c :=
  (State.settleIdentity_settles hc).cycle.trans hc

theorem State.settled_classOf (code : Word16) : (s.settleIdentity p).classOf code = s.classOf code := by
  rw [State.classOf, (State.settleIdentity_settles hc).classes, State.classOf]

include hf

/-- Bit `i` of what is found, where it is immediate, ends the cycle. -/
theorem State.checks_of_bit {i : Nat} (hi : i < 8) (h : ((s.settleIdentity p).found p c).getLsbD i = true) :
    ((s.checks p).pos p).findings = (s.settleIdentity p).found p c ∧ ((s.checks p).pos p).seq = .idle ∧
      (((s.checks p).pos p).verdict = .rejected ∨ ((s.checks p).pos p).verdict = .barred) := by
  rw [State.checks_of_whole hc hf]
  exact State.runChecks_of_bit (State.settled_cycle hc) hi h

theorem State.checks_retired (h : tagUid c.blocks ∈ s.retired) :
    ((s.checks p).pos p).findings.getLsbD 2 = true ∧ ((s.checks p).pos p).seq = .idle ∧
      (((s.checks p).pos p).verdict = .rejected ∨ ((s.checks p).pos p).verdict = .barred) := by
  have bit : ((s.settleIdentity p).found p c).getLsbD 2 = true := by
    obtain ⟨bit, -⟩ := (s.settleIdentity p).found_getLsbD p c
    rw [bit, (State.settleIdentity_settles hc).retired]
    exact decide_eq_true h
  obtain ⟨findings, seq, verdict⟩ := State.checks_of_bit hc hf (by decide) bit
  exact ⟨findings ▸ bit, seq, verdict⟩

theorem State.checks_class (h : tagClass c.blocks ∉ (s.pos p).applied.accept) :
    ((s.checks p).pos p).findings.getLsbD 4 = true ∧ ((s.checks p).pos p).seq = .idle := by
  have bit : ((s.settleIdentity p).found p c).getLsbD 4 = true := by
    obtain ⟨-, -, bit, -⟩ := (s.settleIdentity p).found_getLsbD p c
    rw [bit, (State.settleIdentity_settles hc).applied, decide_eq_false h]
    rfl
  obtain ⟨findings, seq, -⟩ := State.checks_of_bit hc hf (by decide) bit
  exact ⟨findings ▸ bit, seq⟩

/-- A UID bound elsewhere is DUPLICATE, with no usage finding (R59). -/
theorem State.checks_of_other {r : IdentityRecord} {q : PosId} (h : s.record (tagUid c.blocks) = some r)
    (hb : r.bound = some q) (hq : q ≠ p) :
    ((s.checks p).pos p).findings.getLsbD 3 = true ∧ ((s.checks p).pos p).findings.getLsbD 5 = false ∧
      ((s.checks p).pos p).findings.getLsbD 6 = false ∧ ((s.checks p).pos p).seq = .idle ∧
      ((s.checks p).pos p).uid = .read (tagUid c.blocks) := by
  have uid := State.settled_of_other hc h hb hq
  have unbound : ((s.settleIdentity p).pos p).boundUid = none := by rw [Position.boundUid, uid]
  obtain ⟨-, bit3, -, bit5, bit6, -⟩ := (s.settleIdentity p).found_getLsbD p c
  have contested : (s.settleIdentity p).contested p (tagUid c.blocks) = true := by rw [State.contested, unbound]
  rw [contested] at bit3
  rw [State.resolved_of_unbound (by rw [unbound]; exact nofun)] at bit5
  rw [unbound] at bit6
  obtain ⟨findings, seq, -⟩ := State.checks_of_bit hc hf (by decide) bit3
  rw [findings, bit3, bit5, bit6]
  refine ⟨rfl, BitVec.getLsbD_zero, rfl, seq, ?_⟩
  rw [State.checks_of_whole hc hf]
  exact State.runChecks_uid (State.settled_cycle hc) (by decide) bit3 uid

/-- A binding that others contest is DUPLICATE. -/
theorem State.checks_of_contested {r : IdentityRecord} (h : State.Identified p c (s.settleIdentity p) r)
    (hn : r.contest ≠ []) :
    ((s.checks p).pos p).findings.getLsbD 3 = true ∧ ((s.checks p).pos p).seq = .idle := by
  obtain ⟨-, bit, -⟩ := (s.settleIdentity p).found_getLsbD p c
  rw [h.contested, List.isEmpty_eq_false_iff.2 hn] at bit
  obtain ⟨findings, seq, -⟩ := State.checks_of_bit hc hf (by decide) bit
  exact ⟨findings ▸ bit, seq⟩

/-- A bit of the findings where the cycle has ended: found, unless nothing is shown. -/
theorem State.checks_bit_false (hs : (s.pos p).seq = .cycle) (hi : ((s.checks p).pos p).seq = .idle) {i : Nat}
    (h : ((s.settleIdentity p).found p c).getLsbD i = false) : ((s.checks p).pos p).findings.getLsbD i = false := by
  rw [State.checks_of_whole hc hf] at hi ⊢
  have seq := (State.settleIdentity_settles hc).seq.trans hs
  rcases State.runChecks_findings (State.settled_cycle hc) seq hi with e | e
  · rw [e]; exact h
  · rw [e]; exact BitVec.getLsbD_zero

theorem State.checks_uncontested {r : IdentityRecord} (h : State.Identified p c (s.settleIdentity p) r)
    (hn : r.contest = []) (hs : (s.pos p).seq = .cycle) (hi : ((s.checks p).pos p).seq = .idle) :
    ((s.checks p).pos p).findings.getLsbD 3 = false := by
  refine State.checks_bit_false hc hf hs hi ?_
  obtain ⟨-, bit, -⟩ := (s.settleIdentity p).found_getLsbD p c
  rw [bit, h.contested, hn]
  rfl

/-- With no commit UNCONFIRMED the counter is held against K (R60). -/
theorem State.checks_counter {r : IdentityRecord} (h : State.Identified p c (s.settleIdentity p) r)
    (hu : (s.pos p).unconfirmed = false) (hs : (s.pos p).seq = .cycle) :
    (s.checks p).known (tagUid c.blocks) = r.known ∧
      ((tagCounter c.blocks).toNat < r.known.toNat →
        ((s.checks p).pos p).findings.getLsbD 6 = true ∧ ((s.checks p).pos p).seq = .idle) ∧
      (r.known.toNat ≤ (tagCounter c.blocks).toNat → ((s.checks p).pos p).seq = .idle →
        ((s.checks p).pos p).findings.getLsbD 6 = false) := by
  have confirmed := State.settleIdentity_confirmed hc hu
  have bit := h.regression confirmed
  refine ⟨?_, fun hlt => ?_, fun hle hi => ?_⟩
  · rw [State.checks_of_whole hc hf, State.runChecks_known (State.settled_cycle hc),
      State.resolved_of_confirmed confirmed, h.known]
  · rw [decide_eq_true hlt] at bit
    obtain ⟨findings, seq, -⟩ := State.checks_of_bit hc hf (i := 6) (by decide) bit
    exact ⟨findings ▸ bit, seq⟩
  · exact State.checks_bit_false hc hf hs hi (bit.trans (decide_eq_false (Nat.not_lt.2 hle)))

/-- An UNCONFIRMED commit that the counter does not settle is USAGE_MISMATCH (R109). -/
theorem State.checks_mismatch {r : IdentityRecord} (h : State.Identified p c (s.settleIdentity p) r)
    (hu : ((s.settleIdentity p).pos p).unconfirmed = true)
    (hn : (tagCounter c.blocks).toNat ≠ r.known.toNat + ((s.settleIdentity p).pos p).inFlight.toNat)
    (hk : tagCounter c.blocks ≠ r.known) :
    ((s.checks p).pos p).findings.getLsbD 5 = true ∧ ((s.checks p).pos p).seq = .idle := by
  obtain ⟨-, -, -, bit, -⟩ := (s.settleIdentity p).found_getLsbD p c
  rw [State.resolved_of_bound h.uid, State.resolveCommit_eq hu, h.known, if_neg hn, if_neg hk] at bit
  have found : ((s.settleIdentity p).found p c).getLsbD 5 = true :=
    bit.trans (show (0x0020 : Word16).getLsbD 5 = true by decide)
  obtain ⟨findings, seq, -⟩ := State.checks_of_bit hc hf (by decide) found
  exact ⟨findings ▸ found, seq⟩

/-- The clock ratio is held against the band of the class (R61). -/
theorem State.checks_clock (hs : (s.pos p).seq = .cycle) (hi : ((s.checks p).pos p).seq = .idle)
    (hn : ((s.checks p).pos p).findings &&& 0x00FF ≠ 0) :
    ((s.checks p).pos p).findings.getLsbD 8 = c.offBand (s.classOf (tagClass c.blocks)) := by
  obtain ⟨-, -, -, -, -, bit⟩ := (s.settleIdentity p).found_getLsbD p c
  rw [State.settled_classOf hc] at bit
  rw [State.checks_of_whole hc hf] at hi hn ⊢
  have seq := (State.settleIdentity_settles hc).seq.trans hs
  rcases State.runChecks_findings (State.settled_cycle hc) seq hi with e | e
  · rw [e]; exact bit
  · rw [e] at hn
    exact absurd BitVec.zero_and hn

/-- Without a class record the cycle ends in the checks, with no CLOCK finding (R62). -/
theorem State.checks_no_class (hs : (s.pos p).seq = .cycle) (h : s.classOf (tagClass c.blocks) = none) :
    ((s.checks p).pos p).seq = .idle ∧ ((s.checks p).pos p).findings.getLsbD 8 = false := by
  have ends : ((s.checks p).pos p).seq = .idle := by
    have settled := State.settled_cycle hc
    rw [State.checks_of_whole hc hf]
    by_cases hi : hasAny ((s.settleIdentity p).found p c) immediateMask = true
    · rw [State.runChecks_eq settled, State.decideChecks_of_immediate hi, State.immediateEnd]
      exact (State.endFindings_ends ..).2.1
    · rw [State.runChecks_eq settled, State.settled_classOf hc, h, State.decideChecks_of_none hi,
        State.pos_endInconclusive _ (State.checksDone_cycle settled)]
  refine ⟨ends, State.checks_bit_false hc hf hs ends ?_⟩
  obtain ⟨-, -, -, -, -, bit⟩ := (s.settleIdentity p).found_getLsbD p c
  rw [bit, State.settled_classOf hc, h]
  rfl

end

/-! ### A part with nothing immediate against it -/

theorem State.line_placeLine_queue (s : State) (l : LineId) (r : LineRequest) :
    ((s.placeLine l r).line l).queue = (s.line l).queue ++ [r] := by
  by_cases h : (s.line l).state = .quiet
  · rw [State.placeLine_of_quiet r h, State.line_postBlock, State.line_setLine]
  · rw [State.placeLine_of_not_quiet r h, State.line_setLine]

/-- The findings of a part with nothing immediate against it. -/
def CycleContext.clearFindings (c : CycleContext) (k : Option ClassRecord) : Word16 :=
  if c.offBand k = true then 0x0100 else 0

theorem CycleContext.clearFindings_not_immediate (c : CycleContext) (k : Option ClassRecord) :
    ¬ hasAny (c.clearFindings k) immediateMask = true := by
  unfold CycleContext.clearFindings
  split <;> decide

section
variable {t : State} {p : PosId} {c : CycleContext} (hc : (t.pos p).cycle = some c)
  (hf : t.found p c = c.clearFindings (t.classOf (tagClass c.blocks)))
include hc hf

theorem State.runChecks_clear_none (h : t.classOf (tagClass c.blocks) = none) :
    ((t.runChecks p).pos p).findings = 0 ∧ ((t.runChecks p).pos p).reason = .noClass ∧
      ((t.runChecks p).pos p).seq = .idle ∧ ((t.runChecks p).pos p).verdict = (t.pos p).verdict := by
  have clear := c.clearFindings_not_immediate (t.classOf (tagClass c.blocks))
  rw [← hf] at clear
  rw [State.runChecks_eq hc, h, State.decideChecks_of_none clear, State.pos_endInconclusive _ (State.checksDone_cycle hc)]
  exact ⟨rfl, rfl, rfl, State.checksDone_verdict hc⟩

variable {k : ClassRecord} (hk : t.classOf (tagClass c.blocks) = some k)
include hk

theorem State.runChecks_clear_eq : t.runChecks p = (t.checksDone p c).enterChallenge p k := by
  have clear := c.clearFindings_not_immediate (t.classOf (tagClass c.blocks))
  rw [← hf] at clear
  rw [State.runChecks_eq hc, hk, State.decideChecks_of_class clear]

theorem State.runChecks_clear_no_key (h : ¬ (t.keys.slots[k.keySlot.val]).isValid = true) :
    ((t.runChecks p).pos p).findings = 0 ∧ ((t.runChecks p).pos p).reason = .noKey ∧
      ((t.runChecks p).pos p).seq = .idle ∧ ((t.runChecks p).pos p).verdict = (t.pos p).verdict := by
  have invalid : ¬ ((t.checksDone p c).keys.slots[k.keySlot.val]).isValid = true := by
    rw [State.checksDone_keys hc]; exact h
  rw [State.runChecks_clear_eq hc hf hk, State.enterChallenge_of_no_key invalid,
    State.pos_endInconclusive _ (State.checksDone_cycle hc)]
  exact ⟨rfl, rfl, rfl, State.checksDone_verdict hc⟩

variable (hv : (t.keys.slots[k.keySlot.val]).isValid = true)
include hv

theorem State.runChecks_clear_key : t.runChecks p =
    if (t.line (t.pos p).applied.line).state = .stuck then
      ((t.checksDone p c).challenged p (t.decidedContext p c)).challengeFailed p .stuck
    else ((t.checksDone p c).challenged p (t.decidedContext p c)).placeLine (t.pos p).applied.line
      { requester := .position p, address := (t.pos p).applied.address,
        command := .challenge (Config.noise (t.checksDone p c).free) } := by
  have valid : ((t.checksDone p c).keys.slots[k.keySlot.val]).isValid = true := by
    rw [State.checksDone_keys hc]; exact hv
  rw [State.runChecks_clear_eq hc hf hk, State.enterChallenge_of_key (State.checksDone_cycle hc) valid,
    State.checksDone_applied hc, State.checksDone_line hc]

theorem State.runChecks_clear_stuck (h : (t.line (t.pos p).applied.line).state = .stuck) :
    ((t.runChecks p).pos p).findings = 0 ∧ ((t.runChecks p).pos p).reason = .link ∧
      ((t.runChecks p).pos p).lastLineError = some .stuck ∧ ((t.runChecks p).pos p).seq = .idle ∧
      ((t.runChecks p).pos p).cycle = none ∧ ((t.runChecks p).pos p).verdict = (t.pos p).verdict := by
  rw [State.runChecks_clear_key hc hf hk hv, if_pos h, State.challengeFailed_eq, State.pos_endInconclusive
    (c := { t.decidedContext p c with
      stage := .challenge, challenge := some (Config.noise (t.checksDone p c).free) }) _
    (by rw [State.pos_setPos, State.pos_challenged]), State.pos_setPos, State.pos_challenged]
  exact ⟨rfl, rfl, rfl, rfl, rfl, State.checksDone_verdict hc⟩

theorem State.runChecks_clear_line (hs : (t.pos p).seq = .cycle) (h : (t.line (t.pos p).applied.line).state ≠ .stuck) :
    ((t.runChecks p).pos p).seq = .cycle ∧ ∃ e v, ((t.runChecks p).pos p).cycle = some e ∧ e.stage = .challenge ∧
      e.classCopy = some k ∧ e.challenge = some v ∧ e.findings = t.found p c ∧
      ((t.runChecks p).line (t.pos p).applied.line).queue = (t.line (t.pos p).applied.line).queue ++
        [{ requester := .position p, address := (t.pos p).applied.address, command := .challenge v }] := by
  have queue : ((t.runChecks p).line (t.pos p).applied.line).queue = (t.line (t.pos p).applied.line).queue ++
      [{ requester := .position p, address := (t.pos p).applied.address,
         command := .challenge (Config.noise (t.checksDone p c).free) }] := by
    rw [State.runChecks_clear_key hc hf hk hv, if_neg h, State.line_placeLine_queue, State.challenged,
      State.line_setPos, ← State.checksDone_line hc]
    rfl
  have pos : (t.runChecks p).pos p = { (t.checksDone p c).pos p with
      cycle := some { t.decidedContext p c with
        stage := .challenge, challenge := some (Config.noise (t.checksDone p c).free) } } := by
    rw [State.runChecks_clear_key hc hf hk hv, if_neg h, State.pos_congr (State.placeLine_positions ..),
      State.pos_challenged]
  rw [pos]
  exact ⟨(State.checksDone_seq hc).trans hs, _, _, rfl, rfl, hk, rfl, rfl, queue⟩

end
end Sys2Proof.Machine
end
section
/-! PROOFS. The findings of a cycle (R20, R56 to R65, R109, R149, R150). -/
namespace Sys2Proof.Machine

/-- The UID's check digit by its nibbles (R20). -/
theorem uidWellFormed_nibbles (u : Word64) : let nibble (i : Nat) : Nat := u.toNat / 16 ^ i % 16
    uidWellFormed u = true ↔ (nibble 1 + nibble 2 + nibble 3 + nibble 4 + nibble 5 + nibble 6 + nibble 7 + nibble 8 +
      nibble 9 + nibble 10 + nibble 11 + nibble 12 + nibble 13 + nibble 14 + nibble 15) % 16 = nibble 0 := by
  intro nibble
  have sum : ((List.range 15).map (fun i => nibble (i + 1))).sum = nibble 1 + nibble 2 + nibble 3 + nibble 4 + nibble 5 +
      nibble 6 + nibble 7 + nibble 8 + nibble 9 + nibble 10 + nibble 11 + nibble 12 + nibble 13 + nibble 14 + nibble 15 := by
    simp only [List.range_succ, List.range_zero, List.map_append, List.map_nil, List.map_cons, List.sum_append,
      List.sum_nil, List.sum_cons, Nat.zero_add, Nat.add_zero, List.nil_append]
  rw [uidWellFormed_iff, ← sum]

theorem formatFindings_cases (c : CycleContext) : let bad := uidWellFormed (tagUid c.blocks) = false
    (c.n < 2 → formatFindings c = 0x0002) ∧ (2 ≤ c.n → c.n < 7 → bad → formatFindings c = 0x0003) ∧
    (2 ≤ c.n → c.n < 7 → ¬ bad → formatFindings c = 0x0002) ∧ (7 ≤ c.n → bad → formatFindings c = 0x0001) ∧
    (7 ≤ c.n → ¬ bad → formatFindings c = 0) := by
  intro bad
  refine ⟨formatFindings_of_few, fun h2 h7 hb => ?_, fun h2 h7 hb => ?_, fun h7 hb => ?_, fun h7 hb => ?_⟩
  · rw [formatFindings_of_blocks h2, hb, decide_eq_true h7]; rfl
  · rw [formatFindings_of_blocks h2, eq_true_of_ne_false hb, decide_eq_true h7]; rfl
  · rw [formatFindings_of_blocks (by omega), hb, decide_eq_false (Nat.not_lt.2 h7)]; rfl
  · rw [formatFindings_of_blocks (by omega), eq_true_of_ne_false hb, decide_eq_false (Nat.not_lt.2 h7)]; rfl

/-- An UNCONFIRMED commit resolved by the counter, K, and the wear flag (R109, R111). -/
theorem State.resolveCommit_cases (s : State) (p : PosId) (w : Word64) (v : Word32) (rec : IdentityRecord)
    (hr : s.record w = some rec) (hu : (s.pos p).unconfirmed = true) :
    let x := s.pos p
    let t := (s.resolveCommit p w v).1
    let finding := (s.resolveCommit p w v).2
    let sum := x.pendingUse.toNat + x.inFlight.toNat
    let added := rec.known.toNat + x.inFlight.toNat
    (t.pos p).wear =
      decide (x.boundUid ≠ none ∧ x.usageLimit ≠ 0 ∧ x.usageLimit.toNat ≤ (t.knownOf x).toNat) ∧
    let given := { x.usage with committed := x.committed + x.inFlight.setWidth 32, inFlight := 0, unconfirmed := false }
    (v.toNat = added → finding = 0 ∧ (t.pos p).usage = given ∧ t.known w = v) ∧
    (v.toNat ≠ added → v = rec.known → finding = 0 ∧ t.known w = rec.known ∧ (t.pos p).usage = { x.usage with
      pendingUse := BitVec.ofNat 16 (min 65535 sum), dropped := x.dropped + BitVec.ofNat 32 (sum - 65535),
      inFlight := 0, unconfirmed := false }) ∧
    (v.toNat ≠ added → v ≠ rec.known → finding = 0x0020 ∧ (t.pos p).usage = given ∧
      (t.known w).toNat = max rec.known.toNat v.toNat) := by
  intro x t finding sum added
  have known := State.known_of_record hr
  have resolved : s.resolveCommit p w v = _ := State.resolveCommit_eq hu
  rw [known] at resolved
  have raised : (((s.raiseKnown w v).resolvedWith p Position.takeAmount).known w).toNat = max rec.known.toNat v.toNat :=
    State.known_raiseKnown hr v
  have taken := (s.raiseKnown w v).pos_resolvedWith p Position.takeAmount
  have back := s.pos_resolvedWith p Position.returnAmount
  by_cases hs : v.toNat = added
  · rw [if_pos hs] at resolved
    have ht : t = (s.raiseKnown w v).resolvedWith p Position.takeAmount := congrArg Prod.fst resolved
    refine ⟨?_, fun _ => ⟨congrArg Prod.snd resolved, ?_, ?_⟩, fun h => absurd hs h, fun h => absurd hs h⟩
    · rw [ht, taken]; rfl
    · rw [ht, taken]; rfl
    · rw [ht]
      refine BitVec.eq_of_toNat_eq (raised.trans ?_)
      omega
  · rw [if_neg hs] at resolved
    by_cases hb : v = rec.known
    · rw [if_pos hb] at resolved
      have ht : t = s.resolvedWith p Position.returnAmount := congrArg Prod.fst resolved
      refine ⟨?_, fun h => absurd h hs, fun _ _ => ⟨congrArg Prod.snd resolved, ?_, ?_⟩, fun _ h => absurd hb h⟩
      · rw [ht, back]; rfl
      · rw [ht]; exact known
      · rw [ht, back]; rfl
    · rw [if_neg hb] at resolved
      have ht : t = (s.raiseKnown w v).resolvedWith p Position.takeAmount := congrArg Prod.fst resolved
      refine ⟨?_, fun h => absurd h hs, fun _ h => absurd h hb, fun _ _ => ⟨congrArg Prod.snd resolved, ?_, ?_⟩⟩
      · rw [ht, taken]; rfl
      · rw [ht, taken]; rfl
      · rw [ht]; exact raised

/-- A group fires when it has an enabled rule and each of them hits (R149, R150). -/
theorem screenFindings_bits (rules : List Rule) (i : ScreenInputs) (g : Fin 4) :
    let hit (r : Rule) : Prop := ∃ v, i.value r.quantity = some v ∧ (r.classCode = 0 ∨ r.classCode = i.classCode) ∧
      (r.sense = .inside → r.lo.toInt ≤ v ∧ v ≤ r.hi.toInt) ∧ (r.sense = .outside → v < r.lo.toInt ∨ r.hi.toInt < v)
    ((screenFindings rules i).getLsbD (12 + g.val) = true ↔
      (∃ r ∈ rules, r.enabled = true ∧ r.group = g) ∧ ∀ r ∈ rules, r.enabled = true → r.group = g → hit r) ∧
    ∀ b : Nat, b < 12 → (screenFindings rules i).getLsbD b = false := by
  intro hit
  have fires : (screenFindings rules i).getLsbD (12 + g.val) = true ↔ groupFires rules g i = true := by
    rw [getLsbD_screenFindings rules i (by omega), decide_eq_true_iff]
    refine ⟨fun ⟨h, hf, he⟩ => ?_, fun hf => ⟨g, hf, rfl⟩⟩
    rw [show g = h from Fin.ext (by omega)]
    exact hf
  refine ⟨?_, fun b hb => ?_⟩
  · rw [fires, groupFires_iff]
    simp only [Rule.isMatch_iff]
    rfl
  · rw [getLsbD_screenFindings rules i (by omega), decide_eq_false_iff_not]
    rintro ⟨h, -, he⟩
    omega

theorem CycleContext.offBand_iff (c : CycleContext) (k : ClassRecord) :
    c.offBand (some k) = true ↔ c.ratio.toNat < k.bandLo.toNat ∨ k.bandHi.toNat < c.ratio.toNat := decide_eq_true_iff

/-- An arriving position: streaks 0 and grace refilled (R15, R143). -/
theorem Position.arriving_eq (y : Position) (c : CycleContext) {a : PosConfig} (h : y.applied = a) :
    { (y.tagged c).settle .arriving with grace := ((y.tagged c).settle .arriving).refill } = { y with
      classCode := tagClass c.blocks, usageLimit := if y.boundUid = none then 0 else tagLimit c.blocks
      verdict := .arriving, doubt := 0, clean := 0, grace := if a.cycleInput = none then 0 else a.grace } := by
  subst h
  rfl

/-- The identity settled, by the UID that the position holds. -/
theorem State.checks_cases {s : State} {p : PosId} {c : CycleContext} (hc : (s.pos p).cycle = some c) :
    let x := s.pos p
    let u := tagUid c.blocks
    let f := formatFindings c
    let limits : Limits := { trip := 1, recover := 0, forgive := 255, latch := 3 }
    let kept := 2 ≤ c.n ∧ x.boundUid = some u
    let ended (t : State) : State := if x.boundUid = none then t else t.endBinding p
    (f ≠ 0 → kept → s.checks p = (s.setPos p { x with
      classCode := ((s.record u).map (fun r => r.classCode)).getD 0 }).endCycle p .findings f .none limits) ∧
    (f ≠ 0 → ¬ kept →
      let d := ended (s.leaveContests p none)
      s.checks p = (d.setPos p { d.pos p with uid := .none, classCode := 0 }).endCycle p .findings f .none limits) ∧
    (f = 0 →
      let t := s.settleIdentity p
      let seen (v : State) : State := v.sight p u (tagClass c.blocks) (tagCounter c.blocks)
      let limit (y : Position) : Word32 := if y.boundUid = none then 0 else tagLimit c.blocks
      s.checks p = t.runChecks p ∧
      (x.boundUid = some u →
        let v := seen (s.leaveContests p (some u))
        let y := v.pos p
        t = v.setPos p { y with classCode := tagClass c.blocks, usageLimit := limit y }) ∧
      (x.boundUid ≠ some u →
        let v := seen (ended (s.leaveContests p (some u)))
        let y := v.pos p
        t = (v.setPos p { y with
          classCode := tagClass c.blocks, usageLimit := limit y, verdict := .arriving, doubt := 0, clean := 0,
          grace := if x.applied.cycleInput = none then 0 else x.applied.grace }).evaluatePermits)) := by
  intro x u f limits kept ended
  refine ⟨fun hf hk => ?_, fun hf hk => ?_, fun hf => ⟨State.checks_of_whole hc hf, fun hb => ?_, fun hb => ?_⟩⟩
  · rw [State.checks_of_failed hc hf, State.formatFailed_of_kept hc f hk]
    rfl
  · rw [State.checks_of_failed hc hf, State.formatFailed_of_lost hc f hk]
    rfl
  · exact State.settleIdentity_again hc hb
  · have settles : State.Settles p s ((ended (s.leaveContests p (some u))).seen p c) :=
      ((State.Settles.leaveContests s _).trans (State.Settles.released s _)).trans (State.Settles.sight _ _ _ _)
    refine (State.settleIdentity_arrival hc hb).trans (congrArg State.evaluatePermits ?_)
    rw [State.modPos_modPos, State.modPos_eq]
    exact congrArg (State.setPos _ p) (Position.arriving_eq _ c settles.applied)

/-- Settles O60: format, identity, checks, resolution and screening, each by its own lemma. -/
theorem findingsDecided : Obligations.FindingsDecided := by
  refine ⟨uidWellFormed_nibbles, formatFindings_cases, fun s p c hc => State.checks_cases hc,
    fun s p c hc hf => ⟨State.checks_retired hc hf, State.checks_class hc hf⟩, fun s p c hc hf hs => ?_,
    State.resolveCommit_cases, screenFindings_bits⟩
  intro x u count t own offBand
  refine ⟨fun r q hr hb hq => State.checks_of_other hc hf hr hb hq, fun r hr ⟨hb, hx⟩ hn =>
    State.checks_of_contested hc hf (State.settled_of_own hc hr hb hx) hn, fun h hi => ?_, fun r hr hb hu => ?_,
    fun r hr ⟨hb, hx⟩ hu hn hk => ?_, fun k hk hi hn => ?_, State.checks_no_class hc hf hs,
    fun r hr ⟨hb, hx⟩ hn hu hret hacc hle => ?_⟩
  · have identified : ∃ r, State.Identified p c (s.settleIdentity p) r ∧ r.contest = [] := by
      rcases h with h | ⟨r, hr, ⟨hb, hx⟩ | hb, hn⟩
      · exact State.settled_of_none hc h
      · exact ⟨_, State.settled_of_own hc hr hb hx, hn⟩
      · exact ⟨_, State.settled_of_unbound hc hr hb, hn⟩
    obtain ⟨r, hr, hn⟩ := identified
    exact State.checks_uncontested hc hf hr hn hs hi
  · rcases hb with ⟨hb, hx⟩ | hb
    · have counter := State.checks_counter hc hf (State.settled_of_own hc hr hb hx) hu hs
      exact counter
    · have counter := State.checks_counter hc hf (State.settled_of_unbound hc hr hb) hu hs
      exact counter
  · obtain ⟨unconfirmed, inFlight, -⟩ := State.settled_own_pos hc hr hb hx
    exact State.checks_mismatch hc hf (State.settled_of_own hc hr hb hx) (unconfirmed.trans hu)
      (by rw [inFlight]; exact hn) hk
  · rw [State.checks_clock hc hf hs hi hn, hk]
    exact c.offBand_iff k
  · have settles := State.settleIdentity_settles hc
    have settled := State.settled_cycle hc
    obtain ⟨-, -, verdict⟩ := State.settled_own_pos hc hr hb hx
    have clear := (State.settled_of_own hc hr hb hx).found_clear (State.settleIdentity_confirmed hc hu) hn
      (by rw [settles.retired]; exact hret) (by rw [settles.applied]; exact hacc) hle
    have whole : t = (s.settleIdentity p).runChecks p := State.checks_of_whole hc hf
    rw [whole]
    have classOf (code : Word16) := State.settled_classOf (s := s) (p := p) hc code
    refine ⟨fun hk => ?_, fun k hk => ⟨fun hv => ?_, fun hv hl => ?_, fun hv hl => ?_⟩⟩
    · obtain ⟨h1, h2, h3, h4⟩ := State.runChecks_clear_none settled clear ((classOf _).trans hk)
      exact ⟨h1, h2, h3, h4.trans verdict⟩
    · obtain ⟨h1, h2, h3, h4⟩ := State.runChecks_clear_no_key settled clear ((classOf _).trans hk)
        (by rw [settles.keys]; exact hv)
      exact ⟨h1, h2, h3, h4.trans verdict⟩
    · obtain ⟨h1, h2, h3, h4, h5, h6⟩ := State.runChecks_clear_stuck settled clear ((classOf _).trans hk)
        (by rw [settles.keys]; exact hv) (by rw [settles.applied, settles.line]; exact hl)
      exact ⟨h1, h2, h3, h4, h5, h6.trans verdict⟩
    · have going := State.runChecks_clear_line settled clear ((classOf _).trans hk)
        (by rw [settles.keys]; exact hv) (settles.seq.trans hs) (by rw [settles.applied, settles.line]; exact hl)
      rw [settles.applied, settles.line] at going
      obtain ⟨seq, e, v, cycle, stage, copy, challenge, findings, queue⟩ := going
      rw [clear, classOf, hk] at findings
      refine ⟨seq, e, v, cycle, stage, copy, challenge, fun ho => ?_, fun ho => ?_, queue⟩
      · rw [findings, if_pos ((c.offBand_iff k).2 ho)]
      · rw [findings, if_neg fun e => ho ((c.offBand_iff k).1 e)]

end Sys2Proof.Machine
end
section
/-! SUPPORT. The release of a BARRED position (R127, R146), and what a hand-off leaves of a task slot. -/
namespace Sys2Proof.Machine

/-! ### A release, by its parts -/

section
variable (s : State) (p : PosId) (w : Word64)

theorem State.pos_releasePosition : (s.releasePosition p w).pos p = { s.pos p with
    verdict := .arriving, doubt := 0, clean := 0, owed := true, grace := (s.pos p).refill,
    edition := (s.pos p).edition + 2, pulseDirty := false } := by
  rw [State.releasePosition, State.pos_postHalf, State.pos_congr (State.evaluatePermits_positions _), State.pos_modPos]
  rfl

theorem State.releasePosition_retired : (s.releasePosition p w).retired = s.retired.filter (fun v => decide (v ≠ w)) := by
  rw [State.releasePosition, State.postHalf_retired, State.evaluatePermits_retired]
  rfl

theorem State.releasePosition_identity : (s.releasePosition p w).identity =
    s.identity.map (fun r => if r.uid = w then { r with rejects := 0 } else r) := by
  rw [State.releasePosition, State.postHalf_identity, State.evaluatePermits_identity]
  rfl

/-- A UID on the list has left it. -/
theorem filter_ne_of_mem {l : List Word64} {w : Word64} (h : w ∈ l) : l.filter (fun v => decide (v ≠ w)) ≠ l :=
  fun e => absurd (List.filter_eq_self.1 e w h) (by simp)

variable {s p w}

/-- The UID was on the list, so the device block is posted (R121). -/
theorem State.releaseHeld_of_mem {k : SlotId} (h : w ∈ s.retired) : s.releaseHeld k p w =
    (s.releasePosition p w).postBlock.complete k .ok
      ([BitVec.ofNat 8 p.val, BitVec.ofNat 8 (s.rejectsOf w)] ++ bytes64 w) := by
  have changed : ¬ (s.releasePosition p w).retired = s.retired := by
    rw [State.releasePosition_retired]
    exact filter_ne_of_mem h
  rw [State.releaseHeld, State.postIfRetiredChanged, if_neg changed]

theorem State.rejectsOf_of_record {r : IdentityRecord} (h : s.record w = some r) : s.rejectsOf w = r.rejects := by
  rw [State.rejectsOf, h]
  rfl

theorem State.barredWith_of_none (h : ∀ q, ¬ ((s.pos q).verdict = .barred ∧ (s.pos q).boundUid = some w)) :
    s.barredWith w = none := by
  rw [State.barredWith, List.find?_eq_none]
  exact fun q _ => fun e => h q (of_decide_eq_true e)

theorem State.barredWith_of_unique (h : (s.pos p).verdict = .barred ∧ (s.pos p).boundUid = some w)
    (hq : ∀ q, (s.pos q).verdict = .barred ∧ (s.pos q).boundUid = some w → q = p) : s.barredWith w = some p := by
  cases hf : s.barredWith w with
  | none => exact absurd (decide_eq_true h) (List.find?_eq_none.1 hf p (mem_allPositions p))
  | some q =>
    have found : allPositions.find? (fun p => decide ((s.pos p).verdict = .barred ∧ (s.pos p).boundUid = some w)) =
      some q := hf
    rw [hq q (by simpa using List.find?_some found)]

end

/-! ### The tasks (R127, R146) -/

theorem exec_release_of_head {s : State} {k : SlotId} {rest : List WatchId} (h : s.taskAtHead k 0x0B rest) :
    exec .release s = .next ((s.taken k rest).releaseTask k).finish :=
  congrArg Host.Outcome.next (State.runTask_of_head h _)

theorem exec_retiredRemove_of_head {s : State} {k : SlotId} {rest : List WatchId} (h : s.taskAtHead k 0x0A rest) :
    exec .retiredRemove s = .next ((s.taken k rest).retiredRemoveTask k).finish :=
  congrArg Host.Outcome.next (State.runTask_of_head h _)

section
variable {s : State} {k : SlotId} {p : PosId} {w : Word64}

theorem State.releaseTask_of_badArgument (h : 24 ≤ (byteAt (s.payload k) 0).toNat) :
    s.releaseTask k = s.completeFree k .badArgument := by
  rw [State.releaseTask, finOfCode_of_le h]

theorem State.releaseTask_of_refused (h : (byteAt (s.payload k) 0).toNat = p.val) (hv : (s.pos p).verdict ≠ .barred) :
    s.releaseTask k = s.completeFree k .refused := by
  rw [State.releaseTask, finOfCode_of_eq h]
  dsimp only
  split
  case h_1 hb _ => exact absurd hb hv
  case h_2 => rfl

theorem State.releaseTask_of_barred (h : (byteAt (s.payload k) 0).toNat = p.val) (hv : (s.pos p).verdict = .barred)
    (hb : (s.pos p).boundUid = some w) : s.releaseTask k = (s.releaseHeld k p w).choose p := by
  rw [State.releaseTask, finOfCode_of_eq h]
  dsimp only
  rw [hv, hb]

theorem State.retiredRemoveTask_of_malformed (h : uidWellFormed (word64At (s.payload k) 0) = false) :
    s.retiredRemoveTask k = s.completeFree k .badArgument := by
  unfold State.retiredRemoveTask
  simp only [h, if_true]

variable (h : uidWellFormed (word64At (s.payload k) 0) = true)
include h

theorem State.retiredRemoveTask_of_absent (hn : word64At (s.payload k) 0 ∉ s.retired) :
    s.retiredRemoveTask k = s.completeFree k .noSuch := by
  unfold State.retiredRemoveTask
  simp only [h, Bool.true_eq_false, if_false, hn, not_false_eq_true, if_true]

theorem State.retiredRemoveTask_of_free (hm : word64At (s.payload k) 0 ∈ s.retired)
    (hn : s.barredWith (word64At (s.payload k) 0) = none) :
    s.retiredRemoveTask k = s.removeUid k (word64At (s.payload k) 0) none := by
  unfold State.retiredRemoveTask
  simp only [h, Bool.true_eq_false, if_false, hm, not_true_eq_false, hn]

theorem State.retiredRemoveTask_of_held (hm : word64At (s.payload k) 0 ∈ s.retired)
    (hp : s.barredWith (word64At (s.payload k) 0) = some p) :
    s.retiredRemoveTask k = (s.removeUid k (word64At (s.payload k) 0) (some p)).choose p := by
  unfold State.retiredRemoveTask
  simp only [h, Bool.true_eq_false, if_false, hm, not_true_eq_false, hp]

end

/-! ### The slot of a task through a hand-off -/

theorem State.evaluatePermits_keepsSlot (s : State) (k : SlotId) : State.KeepsSlot k s s.evaluatePermits := by
  have hk := slotAddr_bounds k
  refine ⟨?_, fun a h1 h2 => State.evaluatePermits_read s (by simp only [Memory.size]; omega) (by omega) (by omega)⟩
  rw [State.slot, State.evaluatePermits_slots]
  rfl

theorem State.completeInspects_keepsSlot (s : State) (p : PosId) {ks : List SlotId} {k : SlotId} (h : k ∉ ks) (ran : Bool)
    (kind : Byte) : State.KeepsSlot k s (s.completeInspects p ks ran kind) := by
  unfold State.completeInspects
  generalize inspectData p (s.pos p) ran kind = data
  induction ks generalizing s with
  | nil => exact State.KeepsSlot.refl s
  | cons j ks ih =>
    have hj : k ≠ j := fun e => h (e ▸ List.mem_cons_self)
    exact (State.complete_keepsSlot s hj .ok data).trans (ih _ fun hm => h (List.mem_cons_of_mem j hm))

theorem State.handResult_keepsSlot (s : State) (p : PosId) (r : Result) (k : SlotId) :
    State.KeepsSlot k s (s.handResult p r) := by
  have applied : State.KeepsSlot k s (s.applyResult p r) :=
    State.KeepsSlot.of_eq _ _ (by rw [State.applyResult_state]) (by rw [State.applyResult_state])
  have told := applied.trans ((s.applyResult p r).evaluatePermits_keepsSlot k)
  unfold State.handResult
  dsimp only
  split
  · exact told
  · exact told.trans (State.postBlock_keepsSlot _ k)

/-- The slot of a task that is none of the cycle's. -/
theorem State.endCycle_keepsSlot (s : State) (p : PosId) (kind : ResultKind) (f : Word16) (reason : Reason) (lim : Limits)
    {k : SlotId} (h : k ∉ (s.context p).tasks) : State.KeepsSlot k s (s.endCycle p kind f reason lim) := by
  have worn : State.KeepsSlot k s (s.evaluateWear p) := State.KeepsSlot.of_eq _ _ rfl rfl
  have handed := worn.trans ((s.evaluateWear p).handResult_keepsSlot p (s.cycleResult p kind f reason lim) k)
  have posted : State.KeepsSlot k s (s.handedOff p kind f reason lim) := by
    refine State.KeepsSlot.trans ?_ (State.postHalf_keepsSlot _ p k)
    exact handed.trans (State.KeepsSlot.of_eq _ _ rfl rfl)
  rw [State.endCycle_eq]
  exact posted.trans (State.completeInspects_keepsSlot _ p h true kind.code)

theorem State.releasePosition_keepsSlot (s : State) (p : PosId) (w : Word64) (k : SlotId) :
    State.KeepsSlot k s (s.releasePosition p w) := by
  refine State.KeepsSlot.trans ?_ (State.postHalf_keepsSlot _ p k)
  refine State.KeepsSlot.trans ?_ (State.evaluatePermits_keepsSlot _ k)
  exact State.KeepsSlot.of_eq _ _ rfl rfl

/-- The task of a release reads DONE with status OK. -/
theorem State.releaseHeld_done {s : State} {p : PosId} {w : Word64} {k : SlotId} (h : w ∈ s.retired)
    (ho : s.owner k = ownerTaken) : (s.releaseHeld k p w).owner k = 0x5A03 ∧
      (s.releaseHeld k p w).mem.word (0x1082 + 256 * k.val) = 0 := by
  have kept := (s.releasePosition_keepsSlot p w k).trans (State.postBlock_keepsSlot _ k)
  have taken : (s.releasePosition p w).postBlock.owner k = ownerTaken := kept.owner.trans ho
  rw [State.releaseHeld_of_mem h]
  refine ⟨(State.complete_of_taken taken .ok _).1, ?_⟩
  rw [show 0x1082 + 256 * k.val = slotAddr k + 0x82 by simp only [slotAddr]; omega]
  exact State.complete_status ..

/-! ### A BARRED position whose cycle finds RETIRED (R147) -/

/-- `t` differs from `s` in the positions and the identity table alone. -/
def State.SameButBindings (s t : State) : Prop := t = { s with positions := t.positions, identity := t.identity }

theorem State.SameButBindings.trans {s t u : State} (h : s.SameButBindings t) (h' : t.SameButBindings u) :
    s.SameButBindings u := by
  unfold State.SameButBindings at *
  rw [h', h]

section
variable {s : State} {p : PosId} {c : CycleContext}

theorem State.settleIdentity_own_same (hc : (s.pos p).cycle = some c) {r : IdentityRecord}
    (hr : s.record (tagUid c.blocks) = some r) (hb : r.bound = some p)
    (hx : (s.pos p).boundUid = some (tagUid c.blocks)) : s.SameButBindings (s.settleIdentity p) := by
  have left : (s.leaveContests p (some (tagUid c.blocks))).record (tagUid c.blocks) = some r :=
    (s.record_leaveContests_keep p _).trans hr
  rw [State.settleIdentity_again hc hx, State.seen, State.sight_of_own left hb]
  rfl

theorem State.checksDone_same (hc : (s.pos p).cycle = some c) : s.SameButBindings (s.checksDone p c) := by
  have resolved : s.SameButBindings (s.resolved p c).1 := by
    by_cases hb : (s.pos p).boundUid = some (tagUid c.blocks)
    · rw [State.resolved_of_bound hb]
      cases h : (s.pos p).unconfirmed with
      | false => rw [State.resolveCommit_of_confirmed h]; rfl
      | true =>
        rw [State.resolveCommit_eq h]
        (repeat' split) <;> rfl
    · rw [State.resolved_of_unbound hb]; rfl
  rw [State.checksDone_eq hc]
  exact resolved.trans rfl

theorem State.checksDone_record (hc : (s.pos p).cycle = some c) {r : IdentityRecord}
    (hr : s.record (tagUid c.blocks) = some r) : ∃ a, (s.checksDone p c).record (tagUid c.blocks) = some a := by
  have resolved : ∃ a, (s.resolved p c).1.record (tagUid c.blocks) = some a := by
    have raised : ∃ a, (s.raiseKnown (tagUid c.blocks) (tagCounter c.blocks)).record (tagUid c.blocks) = some a :=
      ⟨_, State.record_modRecord hr fun _ => rfl⟩
    by_cases hb : (s.pos p).boundUid = some (tagUid c.blocks)
    · rw [State.resolved_of_bound hb]
      cases h : (s.pos p).unconfirmed with
      | false => rw [State.resolveCommit_of_confirmed h]; exact ⟨r, hr⟩
      | true =>
        rw [State.resolveCommit_eq h]
        (repeat' split)
        · exact raised
        · exact ⟨r, hr⟩
        · exact raised
    · rw [State.resolved_of_unbound hb]; exact ⟨r, hr⟩
  rw [State.checksDone_eq hc]
  exact resolved

end

/-- The hand-off of RETIRED where the position is still BARRED: nothing but findings moves. -/
theorem State.endFindings_of_barred {v : State} {p : PosId} (f : Word16) (lim : Limits)
    (hv : (v.pos p).verdict = .barred) :
    ((v.endFindings p f lim).pos p).verdict = .barred ∧ (v.endFindings p f lim).retired = v.retired := by
  have barred : ((v.evaluateWear p).pos p).verdict = .barred := by rw [State.pos_evaluateWear]; exact hv
  obtain ⟨c, known, pos⟩ := v.pos_endFindings p f lim
  refine ⟨?_, ?_⟩
  · rw [pos]
    exact State.applyResult_barred (v.evaluateWear p) p _ barred
  · rw [State.endFindings, State.endCycle_retired, State.judged, State.applyResult_of_barred barred]
    rfl

/-- The hand-off of RETIRED where the position was released meanwhile: BARRED again, its UID last on the list. -/
theorem State.endFindings_of_released {v : State} {p : PosId} {w : Word64} {f : Word16} (lim : Limits)
    (hv : (v.pos p).verdict ≠ .barred) (hb : (v.pos p).boundUid = some w) (hf : hasAny f fRetired = true)
    (hn : w ∉ v.retired) (hl : v.retired.length < 128) :
    ((v.endFindings p f lim).pos p).verdict = .barred ∧ (v.endFindings p f lim).retired = v.retired ++ [w] ∧
      (v.endFindings p f lim).identity = v.identity ∧ ((v.endFindings p f lim).pos p).owed = (v.pos p).owed := by
  have listed (u : State) (hu : u.retired = v.retired) : (u.retire w).retired = v.retired ++ [w] := by
    rw [State.retire_of_room (by rw [hu]; exact hn) (by rw [hu]; exact hl)]
    exact congrArg (· ++ [w]) hu
  have free : ((v.evaluateWear p).pos p).verdict ≠ .barred := by rw [State.pos_evaluateWear]; exact hv
  have judged : v.judged p .findings f .none lim =
      ((v.evaluateWear p).resultRecorded p (v.cycleResult p .findings f .none lim)).bar p :=
    State.applyResult_of_retired free ⟨hf, show (v.pos p).boundUid ≠ none by rw [hb]; exact Option.some_ne_none w⟩
  have uid : (((v.evaluateWear p).resultRecorded p (v.cycleResult p .findings f .none lim)).pos p).boundUid = some w := by
    rw [State.resultRecorded, State.pos_setPos, State.pos_evaluateWear]
    exact hb
  obtain ⟨c, known, pos⟩ := v.pos_endFindings p f lim
  refine ⟨?_, ?_, ?_, ?_⟩
  · rw [pos, judged, State.pos_bar]
    rfl
  · rw [State.endFindings, State.endCycle_retired, judged, State.bar_of_bound uid]
    exact listed _ rfl
  · rw [State.endFindings, State.endCycle_identity, judged, State.bar_identity]
    rfl
  · rw [pos, State.pos_judged]
    rfl

end Sys2Proof.Machine
end
section
/-! PROOFS. RELEASE and RETIRED_REMOVE, and a release between a finding RETIRED and its hand-off (R127, R146, R147). -/
namespace Sys2Proof.Machine

/-! ### Before the hand-off, with a RELEASE at the head -/

theorem State.beforeHandOff_of_release {v : State} {p : PosId} {w : Word64} {k : SlotId} {rest : List WatchId}
    (h : v.taskAtHead k 0x0B rest) (hp : (byteAt (v.slotPayload k) 0).toNat = p.val)
    (hv : (v.pos p).verdict = .barred) (hb : (v.pos p).boundUid = some w) :
    v.beforeHandOff p = v.draw ∨ v.beforeHandOff p = ((v.taken k rest).releaseHeld k p w).draw := by
  have kind : ((v.taken k rest).slot k).kind = 0x0B := by rw [State.taken_slot]; exact h.2.2.2
  have at_ : finOfCode 24 (byteAt ((v.taken k rest).payload k) 0) = some p := by
    rw [State.taken_payload]; exact finOfCode_of_eq hp
  have removal : v.removalAtHead p w = some ((v.taken k rest).releaseHeld k p w) := by
    unfold State.removalAtHead
    rw [State.takeReady_of_head h]
    exact if_pos ⟨kind, at_, hv⟩
  unfold State.beforeHandOff
  rw [hb]
  dsimp only
  rw [removal]
  dsimp only
  split
  · exact .inr rfl
  · exact .inl rfl

theorem length_filter_ne_lt {l : List Word64} {w : Word64} (h : w ∈ l) :
    (l.filter (fun v => decide (v ≠ w))).length < l.length := by
  refine Nat.lt_of_le_of_ne (List.length_filter_le _ l) fun e => filter_ne_of_mem h ?_
  exact List.filter_eq_self.2 (List.length_filter_eq_length_iff.1 e)

section
variable {s : State} {k : SlotId} {p : PosId} {w : Word64} (hm : w ∈ s.retired)
include hm

theorem State.releaseHeld_pos (q : PosId) : (s.releaseHeld k p w).pos q = (s.releasePosition p w).pos q := by
  rw [State.releaseHeld_of_mem hm]
  exact State.pos_congr ((State.complete_positions ..).trans (State.postBlock_positions _)) q

theorem State.releaseHeld_retired :
    (s.releaseHeld k p w).retired = s.retired.filter (fun v => decide (v ≠ w)) := by
  rw [State.releaseHeld_of_mem hm, State.complete_retired, State.postBlock_retired, State.releasePosition_retired]

theorem State.releaseHeld_record {a : IdentityRecord} (ha : s.record w = some a) :
    (s.releaseHeld k p w).record w = some { a with rejects := 0 } := by
  have identity : (s.releaseHeld k p w).identity = (s.modRecord w (fun r => { r with rejects := 0 })).identity := by
    rw [State.releaseHeld_of_mem hm, State.complete_identity, State.postBlock_identity, State.releasePosition_identity]
    rfl
  rw [State.record, identity]
  exact State.record_modRecord ha fun _ => rfl

end

/-- R147: RETIRED found in a cycle of a BARRED position, a RELEASE of it at the head of the watch queue. -/
theorem State.checks_of_barred {s : State} {p : PosId} {c : CycleContext} {r : IdentityRecord} {k : SlotId}
    {rest : List WatchId} (h : s.taskAtHead k 0x0B rest) (hp : (byteAt (s.slotPayload k) 0).toNat = p.val)
    (hc : (s.pos p).cycle = some c) (hf : formatFindings c = 0) (hk : k ∉ c.tasks) (hv : (s.pos p).verdict = .barred)
    (hx : (s.pos p).boundUid = some (tagUid c.blocks)) (hr : s.record (tagUid c.blocks) = some r)
    (hb : r.bound = some p) (hm : tagUid c.blocks ∈ s.retired) (hl : s.retired.length ≤ 128) :
    let t := s.checks p
    let list := s.retired.filter (fun v => decide (v ≠ tagUid c.blocks))
    (t.pos p).verdict = .barred ∧ ((t.watch = s.watch ∧ t.retired = s.retired) ∨
      (t.watch = rest ∧ t.owner k = 0x5A03 ∧ t.mem.word (0x1082 + 256 * k.val) = 0 ∧
        t.retired = list ++ [tagUid c.blocks] ∧ (t.record (tagUid c.blocks)).map (fun r => r.rejects) = some 0 ∧
        (t.pos p).owed = true)) := by
  have settled := State.settled_cycle hc
  have identified := State.settled_of_own hc hr hb hx
  obtain ⟨-, -, verdict⟩ := State.settled_own_pos hc hr hb hx
  obtain ⟨bit, -⟩ := (s.settleIdentity p).found_getLsbD p c
  rw [(State.settleIdentity_settles hc).retired, decide_eq_true hm] at bit
  have immediate := hasAny_immediate_of_bit (by decide) bit
  have retired : hasAny ((s.settleIdentity p).found p c) fRetired = true := by
    rw [hasAny_iff]
    intro e
    have zero := congrArg (BitVec.getLsbD · 2) e
    simp only [BitVec.getLsbD_and, bit] at zero
    exact absurd zero (by decide)
  intro t list
  have ended : t = (((s.settleIdentity p).checksDone p c).beforeHandOff p).endFindings p
      ((s.settleIdentity p).found p c) (limitsOf ((s.settleIdentity p).classOf (tagClass c.blocks))) := by
    have whole : t = (s.settleIdentity p).runChecks p := State.checks_of_whole hc hf
    rw [whole, State.runChecks_eq settled, State.decideChecks_of_immediate immediate, State.immediateEnd, if_pos retired]
  have same : s.SameButBindings ((s.settleIdentity p).checksDone p c) :=
    (State.settleIdentity_own_same hc hr hb hx).trans (State.checksDone_same settled)
  have cycle := State.checksDone_cycle settled
  have barred := (State.checksDone_verdict settled).trans (verdict.trans hv)
  have uid : (((s.settleIdentity p).checksDone p c).pos p).boundUid = some (tagUid c.blocks) := by
    rw [Position.boundUid, State.checksDone_uid settled]
    exact identified.uid
  obtain ⟨a, record⟩ := State.checksDone_record settled identified.record
  have tasks : ((s.settleIdentity p).decidedContext p c).tasks = c.tasks := rfl
  generalize (s.settleIdentity p).checksDone p c = v at *
  generalize (s.settleIdentity p).decidedContext p c = d at *
  have head : v.taskAtHead k 0x0B rest := by rw [same]; exact h
  have payload : (byteAt (v.slotPayload k) 0).toNat = p.val := by rw [same]; exact hp
  have list_v : v.retired = s.retired := by rw [same]
  have watch_v : v.watch = s.watch := by rw [same]
  rcases State.beforeHandOff_of_release head payload barred uid with e | e <;> rw [e] at ended <;> rw [ended]
  · obtain ⟨hv, hret⟩ := State.endFindings_of_barred (v := v.draw) ((s.settleIdentity p).found p c)
      (limitsOf ((s.settleIdentity p).classOf (tagClass c.blocks))) barred
    refine ⟨hv, .inl ⟨?_, hret.trans list_v⟩⟩
    exact (congrArg Frame.watch (State.frame_endFindings v.draw p _ _)).trans watch_v
  · have mem : tagUid c.blocks ∈ (v.taken k rest).retired := by
      rw [show (v.taken k rest).retired = v.retired from rfl, list_v]; exact hm
    have pos := (State.releaseHeld_pos (k := k) (p := p) mem p).trans (State.pos_releasePosition ..)
    have gone : ((v.taken k rest).releaseHeld k p (tagUid c.blocks)).retired = list := by
      rw [State.releaseHeld_retired mem]
      exact congrArg (List.filter _) list_v
    have shown := State.releaseHeld_record (k := k) (p := p) mem (a := a) record
    have done := State.releaseHeld_done (p := p) mem (v.taken_owner k rest)
    have frame : ((v.taken k rest).releaseHeld k p (tagUid c.blocks)).watch = rest :=
      congrArg Frame.watch (State.frame_releaseHeld (v.taken k rest) k p (tagUid c.blocks))
    generalize (v.taken k rest).releaseHeld k p (tagUid c.blocks) = u at *
    have arriving : (u.draw.pos p).verdict ≠ .barred := by
      rw [show u.draw.pos p = u.pos p from rfl, pos]; exact Verdict.noConfusion
    have bound : (u.draw.pos p).boundUid = some (tagUid c.blocks) := by
      rw [show u.draw.pos p = u.pos p from rfl, pos]; exact uid
    have running : (u.draw.pos p).cycle = some d := by
      rw [show u.draw.pos p = u.pos p from rfl, pos]; exact cycle
    have absent : tagUid c.blocks ∉ u.draw.retired := by
      rw [show u.draw.retired = u.retired from rfl, gone]; simp [list]
    have room : u.draw.retired.length < 128 := by
      rw [show u.draw.retired = u.retired from rfl, gone]
      exact Nat.lt_of_lt_of_le (length_filter_ne_lt hm) hl
    obtain ⟨hv, hret, hid, howed⟩ := State.endFindings_of_released
      (limitsOf ((s.settleIdentity p).classOf (tagClass c.blocks))) arriving bound retired absent room
    have kept := State.endCycle_keepsSlot u.draw p .findings ((s.settleIdentity p).found p c) .none
      (limitsOf ((s.settleIdentity p).classOf (tagClass c.blocks))) (k := k)
      (by rw [State.context_of_cycle running, tasks]; exact hk)
    refine ⟨hv, .inr ⟨?_, kept.owner.trans done.1, ?_, ?_, ?_, ?_⟩⟩
    · exact (congrArg Frame.watch (State.frame_endFindings u.draw p _ _)).trans frame
    · rw [← done.2, show 0x1082 + 256 * k.val = slotAddr k + 0x82 by simp only [slotAddr]; omega]
      exact kept.result
    · rw [hret]; exact congrArg (· ++ _) gone
    · rw [State.record, hid]
      exact congrArg (Option.map _) shown
    · rw [howed, show u.draw.pos p = u.pos p from rfl, pos]

/-! ### The obligation -/

/-- Settles O38: the two tasks by their checks, and the release that comes before the hand-off. -/
theorem barredReleased : Obligations.BarredReleased := by
  intro s k rest u list released
  have payload := s.taken_payload k rest
  refine ⟨fun h => ?_, fun h => ?_, fun p c w r h hp hc hf hw hk hv hx hr hb hm hl => ?_⟩
  · rw [exec_release_of_head h]
    refine ⟨fun hn => ?_, fun p hp => ⟨fun hv => ?_, fun w r hv hx hr hm => ?_⟩⟩
    · rw [State.releaseTask_of_badArgument (by rw [payload]; exact hn)]
    · rw [State.releaseTask_of_refused (s := u) (p := p) (by rw [payload]; exact hp) hv]
    · have record : u.record w = some r := hr
      rw [State.releaseTask_of_barred (s := u) (p := p) (by rw [payload]; exact hp) hv hx,
        State.releaseHeld_of_mem (s := u) hm, State.rejectsOf_of_record record]
      rfl
  · rw [exec_retiredRemove_of_head h]
    intro w held
    have word : word64At (u.payload k) 0 = w := by rw [payload]
    refine ⟨fun hw => ?_, fun hw hm => ?_, fun hw hm hn => ?_, fun p hw hm hp hq => ?_⟩
    · rw [State.retiredRemoveTask_of_malformed (by rw [payload]; exact hw)]
    · rw [State.retiredRemoveTask_of_absent (by rw [payload]; exact hw) (by rw [payload]; exact hm)]
    · rw [State.retiredRemoveTask_of_free (s := u) (by rw [word]; exact hw) (by rw [word]; exact hm)
        (by rw [word]; exact State.barredWith_of_none (s := u) hn), word]
      rfl
    · rw [State.retiredRemoveTask_of_held (s := u) (p := p) (by rw [word]; exact hw) (by rw [word]; exact hm)
        (by rw [word]; exact State.barredWith_of_unique (s := u) hp hq), word]
      rfl
  · subst hw
    intro t
    obtain ⟨findings, seq, -⟩ := State.checks_retired hc hf hm
    obtain ⟨verdict, outcome⟩ := State.checks_of_barred h hp hc hf hk hv hx hr hb hm hl
    refine ⟨verdict, seq, findings, ?_, outcome⟩
    rcases outcome with ⟨-, e⟩ | ⟨-, -, -, e, -⟩ <;> rw [e]
    · exact hm
    · exact List.mem_append_right _ (List.mem_singleton_self _)

end Sys2Proof.Machine
end
section
/-! PROOFS. A config edition taken for a sequencer OFF or IDLE (R2 to R6). -/
namespace Sys2Proof.Machine

/-! ### Conflicts (R2) -/

theorem State.any_others_iff (s : State) (p : PosId) (f : Position → Bool) :
    ((allPositions.filter (fun q => decide (q ≠ p))).map s.pos).any f = true ↔ ∃ q, q ≠ p ∧ f (s.pos q) = true := by
  simp only [List.any_eq_true, List.mem_map, List.mem_filter, mem_allPositions, true_and, decide_eq_true_eq]
  exact ⟨fun ⟨_, ⟨q, hq, e⟩, h⟩ => ⟨q, hq, e ▸ h⟩, fun ⟨q, hq, h⟩ => ⟨_, ⟨q, hq, rfl⟩, h⟩⟩

section
variable (s : State) (p : PosId) (c : PosConfig)

/-- The tag address is taken on its line. -/
def State.addressTaken : Prop :=
  ∃ q, q ≠ p ∧ (s.pos q).enabled = true ∧ (s.pos q).applied.line = c.line ∧ (s.pos q).applied.address = c.address

/-- The channel is taken. -/
def State.channelTaken : Prop :=
  c.channel ≠ none ∧ ∃ q, q ≠ p ∧ (s.pos q).enabled = true ∧ (s.pos q).applied.channel = c.channel

variable {s p c}

theorem State.conflict_of_address (h : s.addressTaken p c) : s.conflict p c = some .addressInUse := by
  obtain ⟨q, hq, he, hl, ha⟩ := h
  exact State.conflict_addressInUse hq he hl ha

theorem State.conflict_of_free_address (h : ¬ s.addressTaken p c) : s.conflict p c =
    if c.channel ≠ none ∧ ((allPositions.filter (fun q => decide (q ≠ p))).map s.pos).any
      (fun x => x.enabled && decide (x.applied.channel = c.channel)) = true then some .channelInUse else none := by
  refine if_neg fun e => h ?_
  obtain ⟨q, hq, hm⟩ := (s.any_others_iff p _).1 e
  simp only [Bool.and_eq_true, decide_eq_true_eq] at hm
  exact ⟨q, hq, hm.1.1, hm.1.2, hm.2⟩

theorem State.channelTaken_iff : (c.channel ≠ none ∧ ((allPositions.filter (fun q => decide (q ≠ p))).map s.pos).any
    (fun x => x.enabled && decide (x.applied.channel = c.channel)) = true) ↔ s.channelTaken p c := by
  rw [State.any_others_iff, State.channelTaken]
  simp only [Bool.and_eq_true, decide_eq_true_eq]

theorem State.conflict_of_channel (ha : ¬ s.addressTaken p c) (h : s.channelTaken p c) :
    s.conflict p c = some .channelInUse := by
  rw [State.conflict_of_free_address ha, if_pos (State.channelTaken_iff.2 h)]

theorem State.conflict_none (ha : ¬ s.addressTaken p c) (h : ¬ s.channelTaken p c) : s.conflict p c = none := by
  rw [State.conflict_of_free_address ha, if_neg fun e => h (State.channelTaken_iff.1 e)]

end

/-! ### The held-back mark -/

section
variable (s : State) (p : PosId) (l : LineId)

theorem State.modPos_clearHeldBack (f : Position → Position) :
    (s.clearHeldBack l).modPos p f = (s.modPos p f).clearHeldBack l := by cases l <;> rfl

theorem State.clearHeldBack_twice : (s.clearHeldBack l).clearHeldBack l = s.clearHeldBack l := by cases l <;> rfl

end

/-! ### An accepted half applied (R3, R5, R6) -/

/-- An accepted half recorded (R3). -/
def Position.inForce (x : Position) (st : ConfigStatus) (edition : Word16) : Position :=
  { x with configStatus := st, refusal := .none, examined := edition, appliedEdition := edition }

theorem Position.examinedAs_accepted (x : Position) (clamped : Bool) (edition : Word16) :
    x.examinedAs (if clamped then .appliedClamped else .applied) .none edition =
      x.inForce (if clamped then .appliedClamped else .applied) edition := by
  cases clamped <;> rfl

/-- The half in force, the permits told and the half posted. -/
def State.halfApplied (s : State) (p : PosId) (st : ConfigStatus) (edition : Word16) : State :=
  ((s.modPos p (fun x => x.inForce st edition)).evaluatePermits).postHalf p

section
variable {s : State} {p : PosId} {c : PosConfig} {clamped : Bool} (h : examineHalf s.mem p = .accepted c clamped)
  (hc : s.conflict p c = none)
include h hc

theorem State.examineAndApply_enable (he : (s.pos p).enabled = false) : s.examineAndApply p =
    ((s.modPos p (fun x => x.enable c)).clearHeldBack c.line).halfApplied p
      (if clamped then .appliedClamped else .applied) (s.mem.word (positionAddr p)) := by
  unfold State.examineAndApply
  simp only [h, hc, he, Bool.false_eq_true, if_false, false_and, Position.examinedAs_accepted]
  rfl

theorem State.examineAndApply_reconfigure (he : (s.pos p).enabled = true) : s.examineAndApply p =
    let t := (s.reconfigurePosition p c).halfApplied p (if clamped then .appliedClamped else .applied)
      (s.mem.word (positionAddr p))
    if (s.pos p).applied.line ≠ c.line then t.examineQuiet (s.pos p).applied.line else t := by
  unfold State.examineAndApply
  simp only [h, hc, he, if_true, true_and, Position.examinedAs_accepted]
  rfl

end

/-! ### Reconfiguring (R5) -/

/-- The configuration keeps the binding. -/
def PosConfig.SameBinding (old new : PosConfig) : Prop :=
  old.line = new.line ∧ old.address = new.address ∧ old.channel = new.channel ∧ old.accept = new.accept

theorem PosConfig.departs_of_same {old new : PosConfig} (h : old.SameBinding new) : old.departs new = false := by
  obtain ⟨hl, ha, hc, hx⟩ := h
  simp [PosConfig.departs, hl, ha, hc, hx]

theorem PosConfig.departs_of_not_same {old new : PosConfig} (h : ¬ old.SameBinding new) : old.departs new = true := by
  refine decide_eq_true (Decidable.byContradiction fun e => ?_)
  simp only [not_or, ne_eq, Classical.not_not] at e
  exact h e

section
variable {s : State} {p : PosId} {c : PosConfig}

/-- The timer as a new configuration leaves it. -/
theorem Timer.reconfigure_eq (t : Timer) (old new : Word16) : t.reconfigure old new =
    if old = new then t
    else match t with | .running _ => .running new | .held => .held | .stopped => .stopped := by
  unfold Timer.reconfigure
  split
  · rfl
  · cases t <;> rfl

theorem State.reconfigure_of_same (h : (s.pos p).applied.SameBinding c) :
    s.reconfigurePosition p c = (s.modPos p (fun x => x.reconfigure c)).clearHeldBack c.line := by
  unfold State.reconfigurePosition
  dsimp only
  rw [PosConfig.departs_of_same h, h.1, State.clearHeldBack_twice]
  rfl

/-- The binding ended at a departure, the contests left. -/
def State.departed (s : State) (p : PosId) : State := (s.endBinding p).leaveContests p none

theorem State.pos_departed (s : State) (p : PosId) : (s.departed p).pos p = (s.pos p).depart := s.pos_endBinding p

theorem State.reconfigure_of_departure (h : ¬ (s.pos p).applied.SameBinding c) : s.reconfigurePosition p c =
    (((s.departed p).modPos p (fun x => { x with owed := true }.reconfigure c)).clearHeldBack
      (s.pos p).applied.line).clearHeldBack c.line := by
  unfold State.reconfigurePosition
  dsimp only
  rw [PosConfig.departs_of_not_same h, if_pos rfl, State.modPos_modPos]
  rfl

theorem State.halfApplied_clearHeldBack (v : State) (st : ConfigStatus) (e : Word16) (l : LineId) :
    (v.clearHeldBack l).halfApplied p st e =
      (((v.modPos p (fun x => x.inForce st e)).clearHeldBack l).evaluatePermits).postHalf p := by
  rw [State.halfApplied, State.modPos_clearHeldBack]

/-- A half that keeps the binding. -/
theorem State.halfApplied_of_same (h : (s.pos p).applied.SameBinding c) (st : ConfigStatus) (e : Word16) :
    (s.reconfigurePosition p c).halfApplied p st e = (((s.setPos p { s.pos p with
      applied := c, timer := (s.pos p).timer.reconfigure (s.pos p).applied.interval c.interval,
      grace := if c.cycleInput = none then 0 else (s.pos p).grace, configStatus := st, refusal := .none, examined := e,
      appliedEdition := e }).clearHeldBack c.line).evaluatePermits).postHalf p := by
  rw [State.reconfigure_of_same h, State.halfApplied_clearHeldBack, State.modPos_modPos]
  rfl

theorem Position.departed_inForce (x : Position) (c : PosConfig) (st : ConfigStatus) (e : Word16) :
    ({ x.depart with owed := true }.reconfigure c).inForce st e = { x.depart with
      owed := true, applied := c, timer := x.timer.reconfigure x.applied.interval c.interval, grace := 0,
      configStatus := st, refusal := .none, examined := e, appliedEdition := e } := by
  have grace : (if c.cycleInput = none then 0 else x.depart.grace) = 0 := ite_self _
  unfold Position.reconfigure
  dsimp only
  rw [grace]
  rfl

/-- A half that ends the binding. -/
theorem State.halfApplied_of_departure (h : ¬ (s.pos p).applied.SameBinding c) (st : ConfigStatus) (e : Word16) :
    (s.reconfigurePosition p c).halfApplied p st e = (((((s.departed p).setPos p { (s.departed p).pos p with
      owed := true, applied := c, timer := (s.pos p).timer.reconfigure (s.pos p).applied.interval c.interval, grace := 0,
      configStatus := st, refusal := .none, examined := e, appliedEdition := e }).clearHeldBack
      (s.pos p).applied.line).clearHeldBack c.line).evaluatePermits).postHalf p := by
  rw [State.reconfigure_of_departure h, State.halfApplied_clearHeldBack, State.modPos_clearHeldBack,
    State.modPos_modPos, State.modPos_eq, State.pos_departed, Position.departed_inForce]

end

/-! ### The obligation -/

section
variable {s : State} {p : PosId} {rest : List WatchId} (h : s.entryAtHead (watchOfPos p) rest)
  (hs : (s.pos p).seq = .off ∨ (s.pos p).seq = .idle)
include h hs

/-- The edition is examined at once, and an owed position chooses. -/
theorem exec_configEdition_of_settled {v : State} (hv : (s.withWatch rest).examineAndApply p = v) :
    exec .configEditionTaken s = .next (if (v.pos p).owed then v.choose p else v).finish := by
  have examined : (s.withWatch rest).configEdition p = if (v.pos p).owed then v.choose p else v := by
    rw [← hv]
    exact if_pos hs
  rw [exec_configEditionTaken_of_head h, examined]

end

theorem State.examineAndApply_of_off {s : State} {p : PosId} (h : examineHalf s.mem p = .disabled)
    (he : (s.pos p).enabled = false) : s.examineAndApply p =
      (s.setPos p ((s.pos p).inForce .applied (s.mem.word (positionAddr p)))).postHalf p := by
  unfold State.examineAndApply
  simp only [h, he, Bool.false_eq_true, if_false]
  rfl

/-- Settles O27: the examination by its outcome, the application by what the position was. -/
theorem configEditionApplied : Obligations.ConfigEditionApplied := by
  intro s p rest h u x e after refuse timer hs
  have applies {v : State} (hv : u.examineAndApply p = v) : exec .configEditionTaken s = .next (after v) :=
    exec_configEdition_of_settled h hs hv
  have restarts (c : PosConfig) : timer c = (u.pos p).timer.reconfigure (u.pos p).applied.interval c.interval :=
    (Timer.reconfigure_eq ..).symm
  refine ⟨fun hd he => applies (State.examineAndApply_of_off (s := u) hd he),
    fun r hr => applies (State.examineAndApply_of_refused (s := u) hr), fun c cl hacc => ?_⟩
  intro addressTaken channelTaken st same
  have accepted : examineHalf u.mem p = .accepted c cl := hacc
  refine ⟨fun ha => applies (State.examineAndApply_of_conflict accepted (State.conflict_of_address (s := u) ha)),
    fun ha hch => applies (State.examineAndApply_of_conflict accepted (State.conflict_of_channel (s := u) ha hch)),
    fun ha hch he => applies ?_, fun ha hch he hsame => applies ?_, fun ha hch he hsame => ?_⟩
  · rw [State.examineAndApply_enable accepted (State.conflict_none (s := u) ha hch) he,
      State.halfApplied_clearHeldBack, State.modPos_modPos]
    rfl
  · have line : (u.pos p).applied.line = c.line := hsame.1
    rw [State.examineAndApply_reconfigure accepted (State.conflict_none (s := u) ha hch) he, restarts]
    dsimp only
    rw [if_neg (not_not_intro line)]
    exact State.halfApplied_of_same (s := u) hsame st e
  · intro d v
    have posted := State.halfApplied_of_departure (s := u) hsame st e
    rw [← restarts c] at posted
    refine applies ?_
    rw [State.examineAndApply_reconfigure accepted (State.conflict_none (s := u) ha hch) he]
    exact ite_congr rfl (fun _ => congrArg (State.examineQuiet · _) posted) (fun _ => posted)
end Sys2Proof.Machine
end
section
/-! PROOFS. A config edition that waits, and disabling (R4, R7). -/
namespace Sys2Proof.Machine

/-! ### The posted half -/

theorem State.postHalf_bytes (s : State) (p : PosId) :
    (s.postHalf p).mem.bytes (0x0140 + 128 * p.val) 64 = ((s.postHalf p).pos p).halfBytes := by
  have hp := p.isLt
  have half : stateHalfAddr p = 0x0140 + 128 * p.val := by
    simp only [stateHalfAddr, positionAddr]
    omega
  rw [State.pos_postHalf, ← half]
  unfold State.postHalf
  dsimp only
  rw [Memory.bytes_write_ne _ _ _ _ _ (by rw [half]; simp only [Memory.size]; omega)
    (by rw [half]; simp only [extensionAddr]; omega)]
  have written := Memory.bytes_write s.mem (stateHalfAddr p)
    ({ s.pos p with edition := (s.pos p).edition + 2, pulseDirty := false } : Position).halfBytes
    (by rw [half, Position.halfBytes_length]; simp only [Memory.size]; omega)
  rwa [Position.halfBytes_length] at written

/-! ### The disabled position, before its tasks end -/

/-- The work withdrawn and the binding ended. -/
def State.workDropped (s : State) (p : PosId) : State :=
  let t := (s.withdrawLines (.position p)).withdrawMeas p
  (if (s.pos p).boundUid = none then t else t.dropBinding p).leaveContests p none

/-- The disabled position, the permits told and the half posted. -/
def State.disabledPosted (s : State) (p : PosId) (e : Word16) : State :=
  (((s.workDropped p).modPos p (fun x => x.disable.inForce .applied e)).evaluatePermits).postHalf p

theorem State.disablePosition_eq (s : State) (p : PosId) (e : Word16) : s.disablePosition p e =
    ((((s.disabledPosted p e).completeInspects p (((s.pos p).cycle.map (fun c => c.tasks)).getD []) true 0).completeInspects
      p (s.pos p).inspectWaiting false 0).completeAllFree
      ((((s.pos p).commit.map (fun c => c.tasks)).getD []) ++ (s.pos p).commitWaiting) .refused).examineQuiet
      (s.pos p).applied.line := rfl

section
variable (s : State) (p : PosId) (e : Word16)

theorem State.workDropped_eq : s.workDropped p = { s.workDropped p with
    slots := s.slots, mem := s.mem, free := s.free, watch := s.watch, retired := s.retired } := by
  unfold State.workDropped
  dsimp only
  split
  · rfl
  · rw [State.dropBinding_eq]; rfl

theorem State.workDropped_pos : (s.workDropped p).pos p =
    if (s.pos p).boundUid = none then s.pos p else (s.pos p).depart := by
  unfold State.workDropped
  dsimp only
  split
  · rfl
  · exact State.pos_dropBinding ..

theorem State.workDropped_pos_ne {q : PosId} (h : p ≠ q) : (s.workDropped p).pos q = s.pos q := by
  unfold State.workDropped
  dsimp only
  split
  · rfl
  · exact State.pos_dropBinding_ne _ p h

theorem State.workDropped_line (l : LineId) : (s.workDropped p).line l = (s.line l).withdraw (.position p) := by
  unfold State.workDropped
  dsimp only
  split
  · cases l <;> rfl
  · rw [State.dropBinding_eq]; cases l <;> rfl

theorem State.workDropped_meas : (s.workDropped p).meas = { s.meas with
    queue := s.meas.queue.filter (fun r => decide (r.position ≠ some p))
    inFlight := s.meas.inFlight.map
      (fun f => if f.request.position = some p then { f with disposition := .withdrawn } else f) } := by
  unfold State.workDropped
  dsimp only
  split
  · rfl
  · rw [State.dropBinding_eq]; rfl

theorem State.workDropped_unbound (h : (s.pos p).boundUid ≠ none) :
    ∀ r ∈ (s.workDropped p).identity, r.bound ≠ some p := by
  unfold State.workDropped
  dsimp only
  rw [if_neg h, State.dropBinding_eq]
  have bound : (((s.withdrawLines (.position p)).withdrawMeas p).pos p).boundUid ≠ none := h
  rw [if_pos bound, if_pos bound]
  intro r hr
  rw [State.leaveContests_none] at hr
  simp only [List.mem_map] at hr
  obtain ⟨_, ⟨a, -, rfl⟩, rfl⟩ := hr
  unfold IdentityRecord.freedFrom
  dsimp only
  split
  · exact nofun
  · next hb => exact hb

theorem State.workDropped_uncontested : ∀ r ∈ (s.workDropped p).identity, p ∉ r.contest := by
  unfold State.workDropped
  dsimp only
  intro r hr
  rw [State.leaveContests_none] at hr
  obtain ⟨a, -, rfl⟩ := List.mem_map.1 hr
  simp

end

/-- What disabling makes of a position (R7, R110, R111). -/
theorem Position.disable_eq (x : Position) (e : Word16) :
    (if x.boundUid = none then x else x.depart).disable.inForce .applied e = { x with
      enabled := false, seq := .off, editionWaiting := false, owed := false, timer := .stopped, cycle := none,
      inspectWaiting := [], commit := none, commitWaiting := [], pendingUse := 0, inFlight := 0,
      unconfirmed := false, lost := x.lost + x.pendingUse.setWidth 32 + x.inFlight.setWidth 32,
      verdict := .disabled, wear := false, uid := .none, classCode := 0, known := 0,
      reason := if x.seq = .cycle then .aborted else x.reason, doubt := if x.boundUid ≠ none then 0 else x.doubt,
      clean := if x.boundUid ≠ none then 0 else x.clean, grace := if x.boundUid ≠ none then 0 else x.grace,
      missed := if x.boundUid ≠ none then 0 else x.missed,
      usageLimit := if x.boundUid ≠ none then 0 else x.usageLimit,
      configStatus := .applied, refusal := .none, examined := e, appliedEdition := e } := by
  by_cases h : x.boundUid = none
  · simp only [h, if_true, ne_eq, not_true_eq_false, if_false]
    rfl
  · have nothing (n : Word32) : n + (0 : Word16).setWidth 32 + (0 : Word16).setWidth 32 = n := by simp
    simp only [h, if_false, ne_eq, not_false_eq_true, if_true]
    unfold Position.inForce Position.disable Position.giveUpUse Position.depart Position.settle Position.giveUpUse
    dsimp only
    rw [nothing]

section
variable (s : State) (p : PosId) (e : Word16)

theorem State.pos_disabledPosted : (s.disabledPosted p e).pos p =
    { (if (s.pos p).boundUid = none then s.pos p else (s.pos p).depart).disable.inForce .applied e with
      edition := (s.pos p).edition + 2, pulseDirty := false } := by
  have edition : (if (s.pos p).boundUid = none then s.pos p else (s.pos p).depart).edition = (s.pos p).edition := by
    split <;> rfl
  rw [State.disabledPosted, State.pos_postHalf, State.pos_congr (State.evaluatePermits_positions _), State.pos_modPos,
    State.workDropped_pos, ← edition]
  rfl

theorem State.pos_disabledPosted_ne {q : PosId} (h : p ≠ q) : (s.disabledPosted p e).pos q = s.pos q := by
  rw [State.disabledPosted, State.pos_postHalf_ne _ h, State.pos_congr (State.evaluatePermits_positions _),
    State.pos_modPos_ne _ _ h, State.workDropped_pos_ne _ _ h]

theorem State.disabledPosted_slots : (s.disabledPosted p e).slots = s.slots := by
  rw [State.disabledPosted, State.postHalf_slots, State.evaluatePermits_slots, State.workDropped_eq]
  rfl

theorem State.disabledPosted_free : (s.disabledPosted p e).free = s.free := by
  rw [State.disabledPosted, State.postHalf_free, State.evaluatePermits_eq, State.workDropped_eq]
  rfl

theorem State.disabledPosted_keepsSlot (k : SlotId) : State.KeepsSlot k s (s.disabledPosted p e) := by
  have dropped : State.KeepsSlot k s (s.workDropped p) :=
    State.KeepsSlot.of_eq _ _ (by rw [State.workDropped_eq]) (by rw [State.workDropped_eq])
  refine State.KeepsSlot.trans ?_ (State.postHalf_keepsSlot _ p k)
  refine State.KeepsSlot.trans ?_ (State.evaluatePermits_keepsSlot _ k)
  exact dropped.trans (State.KeepsSlot.of_eq _ _ rfl rfl)

theorem State.disabledPosted_current : (s.disabledPosted p e).permitsCurrent = true :=
  State.postHalf_current p (State.evaluatePermits_current _)

theorem State.disabledPosted_identity : (s.disabledPosted p e).identity = (s.workDropped p).identity := by
  rw [State.disabledPosted, State.postHalf_identity, State.evaluatePermits_identity]
  rfl

theorem State.disabledPosted_retired : (s.disabledPosted p e).retired = s.retired := by
  rw [State.disabledPosted, State.postHalf_retired, State.evaluatePermits_retired, State.workDropped_eq]
  rfl

theorem State.disabledPosted_meas : (s.disabledPosted p e).meas = (s.workDropped p).meas := by
  rw [State.disabledPosted, State.postHalf_meas, State.evaluatePermits_meas]
  rfl

theorem State.disabledPosted_line (l : LineId) : (s.disabledPosted p e).line l = (s.workDropped p).line l := by
  rw [State.disabledPosted, State.line_postHalf, State.evaluatePermits_line, State.line_modPos]

end

/-! ### The tasks of the disabled position -/

section
variable (s : State) (p : PosId) (ks : List SlotId) (ran : Bool) (kind : Byte)

@[simp] theorem State.completeInspects_identity : (s.completeInspects p ks ran kind).identity = s.identity :=
  foldl_keeps (·.identity) _ (fun _ _ => State.complete_identity ..) ks s

@[simp] theorem State.completeInspects_retired : (s.completeInspects p ks ran kind).retired = s.retired :=
  foldl_keeps (·.retired) _ (fun _ _ => State.complete_retired ..) ks s

@[simp] theorem State.completeInspects_meas : (s.completeInspects p ks ran kind).meas = s.meas :=
  foldl_keeps (·.meas) _ (fun _ _ => State.complete_meas ..) ks s

@[simp] theorem State.completeInspects_line (l : LineId) : (s.completeInspects p ks ran kind).line l = s.line l :=
  foldl_keeps (·.line l) _ (fun _ _ => by cases l <;> rfl) ks s

end

/-- From `v` to `t` tasks have ended and lines may have looked at QUIET. -/
structure State.TasksEnded (v t : State) : Prop where
  positions : t.positions = v.positions
  identity : t.identity = v.identity
  retired : t.retired = v.retired
  meas : t.meas = v.meas
  queue : ∀ l, (t.line l).queue = (v.line l).queue
  inFlight : ∀ l, (t.line l).inFlight = (v.line l).inFlight

theorem State.TasksEnded.trans {s t u : State} (h : State.TasksEnded s t) (h' : State.TasksEnded t u) :
    State.TasksEnded s u :=
  ⟨h'.positions.trans h.positions, h'.identity.trans h.identity, h'.retired.trans h.retired, h'.meas.trans h.meas,
    fun l => (h'.queue l).trans (h.queue l), fun l => (h'.inFlight l).trans (h.inFlight l)⟩

theorem State.disablePosition_ends (s : State) (p : PosId) (e : Word16) :
    State.TasksEnded (s.disabledPosted p e) (s.disablePosition p e).finish := by
  have inspected (v : State) (ks : List SlotId) (ran : Bool) : State.TasksEnded v (v.completeInspects p ks ran 0) := by
    constructor <;> simp
  have freed (v : State) (ks : List SlotId) : State.TasksEnded v (v.completeAllFree ks .refused) := by
    constructor <;> simp
  have looked (v : State) (l : LineId) : State.TasksEnded v (v.examineQuiet l) :=
    ⟨by simp, by simp, by simp, by simp, fun m => (State.examineQuiet_line v l m).2.1,
      fun m => (State.examineQuiet_line v l m).2.2.1⟩
  have finished (v : State) : State.TasksEnded v v.finish := by
    constructor <;> simp
  rw [State.disablePosition_eq]
  exact ((((inspected _ _ _).trans (inspected _ _ _)).trans (freed _ _)).trans (looked _ _)).trans (finished _)

/-! ### The obligation -/

section
variable {s : State} {p : PosId}

/-- A running cycle or commit makes the edition wait, unless the half disables the position. -/
theorem State.configEdition_of_busy (hs : (s.pos p).seq = .cycle ∨ (s.pos p).seq = .commit)
    (h : ¬ (s.mem.read (positionAddr p + 0x02) = 0 ∧ (s.pos p).enabled = true)) :
    s.configEdition p = s.setPos p { s.pos p with editionWaiting := true } := by
  have busy : ¬ ((s.pos p).seq = .off ∨ (s.pos p).seq = .idle) := by
    rcases hs with e | e <;> rw [e] <;> exact fun o => o.elim nofun nofun
  unfold State.configEdition
  dsimp only
  rw [if_neg busy, if_neg h]
  rfl

theorem State.examineAndApply_of_disabling (h : s.mem.read (positionAddr p + 0x02) = 0)
    (he : (s.pos p).enabled = true) :
    s.examineAndApply p = s.disablePosition p (s.mem.word (positionAddr p)) := by
  have disabled : examineHalf s.mem p = .disabled := if_pos h
  unfold State.examineAndApply
  simp only [disabled, he, if_true]

/-- Disabling acts at once in every sequencer state. -/
theorem State.configEdition_of_disabling (h : s.mem.read (positionAddr p + 0x02) = 0)
    (he : (s.pos p).enabled = true) :
    s.configEdition p = s.disablePosition p (s.mem.word (positionAddr p)) := by
  have owes : ((s.disablePosition p (s.mem.word (positionAddr p))).pos p).owed = false := by
    have ends := s.disablePosition_ends p (s.mem.word (positionAddr p))
    rw [← State.finish_pos, State.pos_congr ends.positions, State.pos_disabledPosted]
    rfl
  unfold State.configEdition
  dsimp only
  rw [State.examineAndApply_of_disabling h he, owes, if_neg Bool.false_ne_true,
    if_pos (c := s.mem.read (positionAddr p + 0x02) = 0 ∧ _) ⟨h, he⟩, ite_self]

end

/-- The disabled position as its INSPECT tasks show it. -/
theorem inspectData_of_disabled {p : PosId} {y : Position} (hv : y.verdict = .disabled) (hu : y.uid = .none) (ran : Bool) :
    inspectData p y ran 0 = [BitVec.ofNat 8 p.val, flagByte ran, 0, 0] ++ bytes32 y.cycleNumber ++
      bytes16 y.findings ++ [(if ran then y.reason else Reason.aborted).code, 0] ++ bytes64 0 ++
      bytes16 y.clockRatio ++ bytes32 y.deviation := by
  rw [inspectData, hv, hu]
  rfl

/-- The tasks of the disabled position end in this order. -/
theorem State.disablePosition_tasks (s : State) (p : PosId) (e : Word16) :
    let v := s.disabledPosted p e
    let y := v.pos p
    let running := ((s.pos p).cycle.map (fun c => c.tasks)).getD []
    let committing := ((s.pos p).commit.map (fun c => c.tasks)).getD []
    let shown (ran reason : Byte) : List Byte := [BitVec.ofNat 8 p.val, ran, 0, 0] ++ bytes32 y.cycleNumber ++
      bytes16 y.findings ++ [reason, 0] ++ bytes64 0 ++ bytes16 y.clockRatio ++ bytes32 y.deviation
    let inspected := (s.pos p).inspectWaiting.foldl (fun w k => w.complete k .ok (shown 0 5))
      (running.foldl (fun w k => w.complete k .ok (shown 1 y.reason.code)) v)
    s.disablePosition p e = ((committing ++ (s.pos p).commitWaiting).foldl (fun w k => w.completeFree k .refused)
      inspected).examineQuiet (s.pos p).applied.line := by
  intro v y running committing shown inspected
  have pos := s.pos_disabledPosted p e
  have verdict : y.verdict = .disabled := congrArg Position.verdict pos
  have uid : y.uid = .none := congrArg Position.uid pos
  have same : (v.completeInspects p running true 0).pos p = y := State.pos_congr (State.completeInspects_positions ..) p
  have first : v.completeInspects p running true 0 =
      running.foldl (fun w k => w.complete k .ok (shown 1 y.reason.code)) v := by
    rw [State.completeInspects, inspectData_of_disabled verdict uid]
    rfl
  have second : (v.completeInspects p running true 0).completeInspects p (s.pos p).inspectWaiting false 0 =
      inspected := by
    rw [State.completeInspects, same, inspectData_of_disabled verdict uid, first]
    rfl
  rw [State.disablePosition_eq, second]
  rfl

/-- Settles O28: the edition that waits, then disabling by the state it posts and the tasks it ends. -/
theorem configEditionBusyOrDisabling : Obligations.ConfigEditionBusyOrDisabling := by
  intro s p rest h x e off bound
  let u := s.withWatch rest
  have exam : positionAddr p + 0x02 = 0x0102 + 128 * p.val := by
    unfold positionAddr
    omega
  rw [exec_configEditionTaken_of_head h]
  refine ⟨fun hs hn => ?_, fun ho he => ⟨_, rfl, ?_⟩⟩
  · rw [State.configEdition_of_busy (s := u) hs (by rw [exam]; exact hn)]
    rfl
  · rw [State.configEdition_of_disabling (s := u) (by rw [exam]; exact ho) he,
      show u.mem.word (positionAddr p) = e from rfl]
    have ends := u.disablePosition_ends p e
    have tasks := u.disablePosition_tasks p e
    have pos := u.pos_disabledPosted p e
    rw [Position.disable_eq] at pos
    have frame : (u.disablePosition p e).frame = u.frame := State.frame_disablePosition u p e
    have posted : (u.disablePosition p e).finish.pos p = (u.disabledPosted p e).pos p :=
      State.pos_congr ends.positions p
    refine ⟨posted.trans pos, fun q hq => ?_, (State.finish_watch _).trans (congrArg Frame.watch frame), ?_,
      State.finish_current _, fun hb => ?_, ?_,
      fun l => ?_, fun l f hf hr => ?_, ?_, fun f hf hr => ?_, fun a ha => ?_, u.disabledPosted p e, ?_⟩
    · exact (State.pos_congr ends.positions q).trans (u.pos_disabledPosted_ne p e (Ne.symm hq))
    · exact ends.retired.trans (u.disabledPosted_retired p e)
    · rw [ends.identity, State.disabledPosted_identity]
      exact u.workDropped_unbound p hb
    · rw [ends.identity, State.disabledPosted_identity]
      exact u.workDropped_uncontested p
    · rw [ends.queue, State.disabledPosted_line, State.workDropped_line]
      cases l <;> rfl
    · have dropped : ((u.workDropped p).line l).inFlight = some f := by
        rw [← State.disabledPosted_line u p e, ← ends.inFlight]; exact hf
      rw [State.workDropped_line] at dropped
      obtain ⟨a, -, rfl⟩ := Option.map_eq_some_iff.1 dropped
      split at hr
      · next hp => rw [if_pos hp]
      · next hn => exact absurd hr hn
    · rw [ends.meas, State.disabledPosted_meas, State.workDropped_meas]
      rfl
    · have dropped : (u.workDropped p).meas.inFlight = some f := by
        rw [← State.disabledPosted_meas u p e, ← ends.meas]; exact hf
      rw [State.workDropped_meas] at dropped
      obtain ⟨a, -, rfl⟩ := Option.map_eq_some_iff.1 dropped
      split at hr
      · next hp => rw [if_pos hp]
      · next hn => exact absurd hr hn
    · exact (State.finish_host _ ha).trans (read_of_hostBytes (congrArg Frame.host frame) ha)
    · refine ⟨?_, posted.symm, u.disabledPosted_slots p e, u.disabledPosted_free p e, u.disabledPosted_current p e,
        fun k => (u.disabledPosted_keepsSlot p e k).owner, ?_⟩
      · rw [posted]
        exact congrArg State.finish tasks
      · rw [posted]
        exact State.postHalf_bytes _ p
end Sys2Proof.Machine
end
section
/-! PROOFS. RETIRED_IMPORT and RETIRED_EXPORT (R125, R126). -/
namespace Sys2Proof.Machine

/-! ### One UID of the list (R125) -/

section
variable {s : State} {c : ImportCounts} {u : Word64}

theorem importUid_of_malformed (h : uidWellFormed u = false) :
    importUid (s, c) u = (s, { c with malformed := c.malformed + 1 }) := by
  unfold importUid
  simp only [h, if_true]

variable (h : uidWellFormed u = true)
include h

theorem importUid_of_wellFormed : importUid (s, c) u =
    if u ∈ s.retired then (s, { c with duplicates := c.duplicates + 1 })
    else (s.retire u,
      { c with added := c.added + 1, dropped := if 128 ≤ s.retired.length then c.dropped + 1 else c.dropped }) := by
  unfold importUid
  simp only [h, Bool.true_eq_false, if_false]

theorem importUid_of_duplicate (hm : u ∈ s.retired) :
    importUid (s, c) u = (s, { c with duplicates := c.duplicates + 1 }) :=
  (importUid_of_wellFormed h).trans (if_pos hm)

theorem importUid_of_fresh (hm : u ∉ s.retired) : importUid (s, c) u = (s.retire u,
    { c with added := c.added + 1, dropped := if 128 ≤ s.retired.length then c.dropped + 1 else c.dropped }) :=
  (importUid_of_wellFormed h).trans (if_neg hm)

theorem importUid_of_room (hm : u ∉ s.retired) (hl : s.retired.length < 128) :
    importUid (s, c) u = ({ s with retired := s.retired ++ [u] }, { c with added := c.added + 1 }) := by
  rw [importUid_of_fresh h hm, State.retire_of_room hm hl, if_neg (Nat.not_le.2 hl)]

theorem importUid_of_full {before young : List Word64} {old : Word64} (hm : u ∉ s.retired)
    (hl : 128 ≤ s.retired.length) (hs : s.retired = before ++ old :: young) (ho : ¬ s.isProtected old = true)
    (hb : ∀ w ∈ before, s.isProtected w = true) : importUid (s, c) u =
      ({ s with retired := before ++ young ++ [u], retiredDropped := satInc s.retiredDropped },
        { c with added := c.added + 1, dropped := c.dropped + 1 }) := by
  rw [importUid_of_fresh h hm, State.retire_of_full hm hl hs ho hb, if_pos hl]

end

/-! ### The whole list -/

/-- An import moves the list and its dropped count alone. -/
theorem foldl_importUid_state (l : List Word64) (s : State) (c : ImportCounts) :
    (l.foldl importUid (s, c)).1 = { s with
      retired := (l.foldl importUid (s, c)).1.retired
      retiredDropped := (l.foldl importUid (s, c)).1.retiredDropped } := by
  induction l generalizing s c with
  | nil => rfl
  | cons u l ih =>
    rcases hd : importUid (s, c) u with ⟨t, d⟩
    have step : t = { s with retired := t.retired, retiredDropped := t.retiredDropped } := by
      have moved : (importUid (s, c) u).1 = t := congrArg Prod.fst hd
      rw [← moved]
      unfold importUid
      dsimp only
      split
      · rfl
      · split
        · rfl
        · exact State.retire_eq s u
    rw [List.foldl_cons, hd]
    refine (ih t d).trans ?_
    rw [step]

/-- Each UID is counted once. -/
theorem foldl_importUid_counts (l : List Word64) (s : State) (c : ImportCounts) :
    (l.foldl importUid (s, c)).2.added + (l.foldl importUid (s, c)).2.duplicates +
      (l.foldl importUid (s, c)).2.malformed = c.added + c.duplicates + c.malformed + l.length ∧
      c.added ≤ (l.foldl importUid (s, c)).2.added := by
  induction l generalizing s c with
  | nil => exact ⟨rfl, Nat.le_refl _⟩
  | cons u l ih =>
    rcases he : importUid (s, c) u with ⟨t, e⟩
    have step : e.added + e.duplicates + e.malformed = c.added + c.duplicates + c.malformed + 1 ∧ c.added ≤ e.added := by
      have counted : (importUid (s, c) u).2 = e := congrArg Prod.snd he
      rw [← counted]
      unfold importUid
      dsimp only
      (repeat' split) <;> dsimp only <;> omega
    obtain ⟨sum, grown⟩ := ih t e
    rw [List.foldl_cons, he, List.length_cons]
    exact ⟨by omega, by omega⟩

/-- Where nothing is added, no UID was fresh. -/
theorem foldl_importUid_none_fresh (l : List Word64) (s : State) (c : ImportCounts)
    (h : (l.foldl importUid (s, c)).2.added = c.added) :
    ∀ u ∈ l, ¬ (uidWellFormed u = true ∧ u ∉ s.retired) := by
  induction l generalizing c with
  | nil => exact fun u hu => absurd hu List.not_mem_nil
  | cons v l ih =>
    have stale : ¬ (uidWellFormed v = true ∧ v ∉ s.retired) := fun ⟨hw, hm⟩ => by
      rw [List.foldl_cons, importUid_of_fresh hw hm] at h
      have grown := (foldl_importUid_counts l (s.retire v) { c with
        added := c.added + 1, dropped := if 128 ≤ s.retired.length then c.dropped + 1 else c.dropped }).2
      dsimp only at grown
      omega
    have kept : ∃ d : ImportCounts, importUid (s, c) v = (s, d) ∧ d.added = c.added := by
      by_cases hw : uidWellFormed v = true
      · have hm : v ∈ s.retired := Decidable.byContradiction fun hm => stale ⟨hw, hm⟩
        exact ⟨_, importUid_of_duplicate hw hm, rfl⟩
      · exact ⟨_, importUid_of_malformed (eq_false_of_ne_true hw), rfl⟩
    obtain ⟨d, hd, ha⟩ := kept
    rw [List.foldl_cons, hd, ← ha] at h
    intro u hu
    rcases List.mem_cons.1 hu with rfl | hu
    · exact stale
    · exact ih d h u hu

theorem foldl_importUid_of_malformed (l : List Word64) (s : State) (c : ImportCounts)
    (h : ∀ u ∈ l, uidWellFormed u = false) :
    l.foldl importUid (s, c) = (s, { c with malformed := c.malformed + l.length }) := by
  induction l generalizing c with
  | nil => rfl
  | cons u l ih =>
    rw [List.foldl_cons, importUid_of_malformed (h u List.mem_cons_self),
      ih _ fun v hv => h v (List.mem_cons_of_mem u hv)]
    simp only [List.length_cons, Nat.add_assoc, Nat.add_comm 1]

theorem foldl_importUid_of_duplicate (l : List Word64) (s : State) (c : ImportCounts)
    (h : ∀ u ∈ l, uidWellFormed u = true ∧ u ∈ s.retired) :
    l.foldl importUid (s, c) = (s, { c with duplicates := c.duplicates + l.length }) := by
  induction l generalizing c with
  | nil => rfl
  | cons u l ih =>
    obtain ⟨hw, hm⟩ := h u List.mem_cons_self
    rw [List.foldl_cons, importUid_of_duplicate hw hm, ih _ fun v hv => h v (List.mem_cons_of_mem u hv)]
    simp only [List.length_cons, Nat.add_assoc, Nat.add_comm 1]

/-- Fresh UIDs, no two the same, go to the end of the list in their order. -/
theorem foldl_importUid_of_fresh (l : List Word64) (s : State) (c : ImportCounts)
    (h : ∀ u ∈ l, uidWellFormed u = true ∧ u ∉ s.retired) (hn : l.Nodup) (hl : s.retired.length + l.length ≤ 128) :
    l.foldl importUid (s, c) =
      ({ s with retired := s.retired ++ l }, { c with added := c.added + l.length }) := by
  induction l generalizing s c with
  | nil => simp
  | cons u l ih =>
    obtain ⟨hw, hm⟩ := h u List.mem_cons_self
    obtain ⟨hu, hn⟩ := List.nodup_cons.1 hn
    rw [List.length_cons] at hl
    rw [List.foldl_cons, importUid_of_room hw hm (by omega), ih]
    · simp only [List.append_assoc, List.singleton_append, List.length_cons, Nat.add_assoc, Nat.add_comm 1]
    · intro v hv
      obtain ⟨hw, hm⟩ := h v (List.mem_cons_of_mem u hv)
      refine ⟨hw, fun e => ?_⟩
      rcases List.mem_append.1 e with e | e
      · exact hm e
      · exact hu (List.mem_singleton.1 e ▸ hv)
    · exact hn
    · simp only [List.length_append, List.length_singleton]
      omega

theorem Memory.uids_length (m : Memory) (a n : Nat) : (m.uids a n).length = n := by
  rw [Memory.uids, List.length_map, List.length_range]

/-! ### The tasks (R125, R126) -/

theorem exec_retiredImport_of_head {s : State} {k : SlotId} {rest : List WatchId} (h : s.taskAtHead k 0x08 rest) :
    exec .retiredImport s = .next ((s.taken k rest).retiredImportTask k) :=
  congrArg Host.Outcome.next (State.runTask_of_head h _)

theorem exec_retiredExport_of_head {s : State} {k : SlotId} {rest : List WatchId} (h : s.taskAtHead k 0x09 rest) :
    exec .retiredExport s = .next ((s.taken k rest).retiredExportTask k) :=
  congrArg Host.Outcome.next (State.runTask_of_head h _)

theorem bulkOk_iff (offset n : Nat) :
    bulkOk offset n = true ↔ offset % 2 = 0 ∧ 0x2000 ≤ offset ∧ offset + n ≤ 0x4000 := decide_eq_true_iff

section
variable {s : State} {k : SlotId} {offset count : Nat} (ho : (word16At (s.payload k) 0).toNat = offset)
  (hc : (word16At (s.payload k) 2).toNat = count)

/-- The import's outcome as the list is taken. -/
def State.imported (s : State) (offset count : Nat) : State × ImportCounts :=
  (s.mem.uids offset count).foldl importUid (s, ⟨0, 0, 0, 0⟩)

/-- The data of an import's result. -/
def importData (count : Nat) (r : State × ImportCounts) : List Byte :=
  [count, r.2.added, r.2.duplicates, r.2.malformed, r.2.dropped, r.1.retired.length].flatMap (leBytes 2)

include ho hc

theorem State.retiredImportTask_eq : s.retiredImportTask k =
    if count = 0 ∨ 128 < count then s.completeFree k .badArgument
    else if bulkOk offset (8 * count) = false then s.completeFree k .badRange
    else (if (s.imported offset count).2.added = 0 then (s.imported offset count).1
      else (s.imported offset count).1.postBlock).complete k .ok (importData count (s.imported offset count)) := by
  subst ho hc
  rfl

theorem State.retiredImportTask_of_range (h1 : 1 ≤ count) (h2 : count ≤ 128) (hb : bulkOk offset (8 * count) = true) :
    s.retiredImportTask k = (if (s.imported offset count).2.added = 0 then (s.imported offset count).1
      else (s.imported offset count).1.postBlock).complete k .ok (importData count (s.imported offset count)) := by
  rw [State.retiredImportTask_eq ho hc, if_neg (by omega), if_neg (by rw [hb]; exact Bool.noConfusion)]

end

section
variable {s : State} {k : SlotId} {offset : Nat} (ho : (word16At (s.payload k) 0).toNat = offset)
include ho

theorem State.retiredExportTask_of_outside (h : bulkOk offset (4 + 8 * s.retired.length) = false) :
    s.retiredExportTask k = s.completeFree k .badRange := by
  subst ho
  unfold State.retiredExportTask
  simp only [h, if_true]

theorem State.retiredExportTask_of_bulk (h : bulkOk offset (4 + 8 * s.retired.length) = true) :
    s.retiredExportTask k = (({ s with mem := s.mem.write offset s.exportBytes } : State).complete k .ok
      (leBytes 2 s.retired.length ++ bytes16 s.retiredDropped ++ [BitVec.ofNat 8 s.protectedCount])) := by
  subst ho
  unfold State.retiredExportTask
  simp only [h, Bool.true_eq_false, if_false]

end

theorem State.exportBytes_length (s : State) : s.exportBytes.length = 4 + 8 * s.retired.length := by
  have uids : (s.retired.flatMap bytes64).length = 8 * s.retired.length := by
    induction s.retired with
    | nil => rfl
    | cons u l ih => rw [List.flatMap_cons, List.length_append, ih, bytes64_length, List.length_cons]; omega
  rw [State.exportBytes, List.length_append, List.length_append, uids, leBytes_length, bytes16_length]

/-- Settles O37: one UID by its four cases, the list by induction, and the two tasks by their checks. -/
theorem retiredListMoved : Obligations.RetiredListMoved := by
  refine ⟨fun v c u => ?_, fun s k rest => ?_⟩
  · intro fresh guarded
    have guard (w : Word64) : v.isProtected w = true ↔ guarded w := v.isProtected_iff w
    exact ⟨importUid_of_malformed, importUid_of_duplicate, fun ⟨hw, hm⟩ => importUid_of_room hw hm,
      fun before old young ⟨hw, hm⟩ hl hs ho hb => importUid_of_full hw hm hl hs (fun e => ho ((guard old).1 e))
        fun w hw => (guard w).2 (hb w hw)⟩
  intro u offset count inBulk uids words len
  have payload := s.taken_payload k rest
  have atOffset : (word16At (u.payload k) 0).toNat = offset := by rw [payload]
  have atCount : (word16At (u.payload k) 2).toNat = count := by rw [payload]
  refine ⟨fun h => ?_, fun h => ?_⟩
  · rw [exec_retiredImport_of_head h]
    refine ⟨fun hc => ?_, fun h1 h2 hb => ?_, fun h1 h2 hb => ?_⟩
    · rw [State.retiredImportTask_eq (s := u) atOffset atCount, if_pos hc]
    · have outside : bulkOk offset (8 * count) = false := eq_false_of_ne_true fun e => hb ((bulkOk_iff _ _).1 e)
      rw [State.retiredImportTask_eq (s := u) atOffset atCount, if_neg (by omega), if_pos outside]
    · have done := State.retiredImportTask_of_range (s := u) atOffset atCount h1 h2 ((bulkOk_iff _ _).2 hb)
      have length : uids.length = count := Memory.uids_length ..
      have state := foldl_importUid_state uids u ⟨0, 0, 0, 0⟩
      rw [done]
      refine ⟨⟨rfl, state, ?_⟩, fun ⟨v, hv, fresh⟩ => ?_, fun hf hn hl => ?_, fun hf => ?_, fun hf => ?_,
        fun v old young hv hw hm hs hl hb => ?_⟩
      · obtain ⟨sum, -⟩ := foldl_importUid_counts uids u ⟨0, 0, 0, 0⟩
        rw [sum, length]
        simp
      · have added : ¬ (u.imported offset count).2.added = 0 := fun e =>
          foldl_importUid_none_fresh uids u ⟨0, 0, 0, 0⟩ e v hv fresh
        rw [if_neg added]
        exact ⟨_, _, rfl, state⟩
      · have result : u.imported offset count = _ := foldl_importUid_of_fresh uids u ⟨0, 0, 0, 0⟩ hf hn
          (by rw [length]; exact hl)
        rw [result, length, if_neg (by dsimp only; omega), importData]
        dsimp only
        rw [List.length_append, length, Nat.zero_add]
        rfl
      · have result : u.imported offset count = _ := foldl_importUid_of_malformed uids u ⟨0, 0, 0, 0⟩ hf
        rw [result, length, if_pos rfl, importData]
        dsimp only
        rw [Nat.zero_add]
        rfl
      · have result : u.imported offset count = _ := foldl_importUid_of_duplicate uids u ⟨0, 0, 0, 0⟩ hf
        rw [result, length, if_pos rfl, importData]
        dsimp only
        rw [Nat.zero_add]
        rfl
      · have one : count = 1 := by rw [← length, hv]; rfl
        have free : ¬ u.isProtected old = true := fun e => by
          obtain ⟨p, hp, -⟩ := (u.isProtected_iff old).1 e
          exact hb p hp
        have full := importUid_of_full (s := u) (c := ⟨0, 0, 0, 0⟩) hw (before := []) hm (Nat.le_of_eq hl.symm) hs free
          fun w hw => absurd hw List.not_mem_nil
        have result : u.imported offset count = importUid (u, ⟨0, 0, 0, 0⟩) v := by
          rw [State.imported, show u.mem.uids offset count = [v] from hv, List.foldl_cons, List.foldl_nil]
        have young_length : young.length = 127 := by
          have whole : s.retired.length = 128 := hl
          rw [hs, List.length_cons] at whole
          omega
        rw [result, full, one, if_neg (by dsimp only; omega), importData]
        dsimp only
        rw [List.nil_append, List.length_append, young_length]
        rfl
  · rw [exec_retiredExport_of_head h]
    have range : bulkOk offset (4 + 8 * len) = true ↔ inBulk (4 + 8 * len) := bulkOk_iff _ _
    refine ⟨fun hb => ?_, fun hb => ?_⟩
    · rw [State.retiredExportTask_of_outside (s := u) atOffset (eq_false_of_ne_true fun e => hb (range.1 e))]
    · obtain ⟨even, low, high⟩ := hb
      have size : u.exportBytes.length = 4 + 8 * len := u.exportBytes_length
      have fits : offset + u.exportBytes.length ≤ Memory.size := by
        rw [size]
        simp only [Memory.size]
        omega
      have written := Memory.bytes_write u.mem offset u.exportBytes fits
      rw [size] at written
      refine ⟨u.mem.write offset u.exportBytes, ?_, written, fun b hb hout => ?_⟩
      · rw [State.retiredExportTask_of_bulk (s := u) atOffset (range.2 ⟨even, low, high⟩)]
        rfl
      · exact Memory.read_write_ne _ _ _ (by rw [size]; exact hout) hb
end Sys2Proof.Machine
end
section
/-! SUPPORT. A record read back field by field: where a field stands in a concatenation, and what the bytes of one
value read as there. -/
namespace Sys2Proof.Machine

/-! ### Fields of two runs -/

section
variable {l m : List Byte} {i : Nat}

theorem word16At_left (h : i + 2 ≤ l.length) : word16At (l ++ m) i = word16At l i :=
  congrArg (BitVec.ofNat 16) (natAt_left h)

theorem word16At_right (h : l.length ≤ i) : word16At (l ++ m) i = word16At m (i - l.length) :=
  congrArg (BitVec.ofNat 16) (natAt_right h)

theorem word32At_left (h : i + 4 ≤ l.length) : word32At (l ++ m) i = word32At l i :=
  congrArg (BitVec.ofNat 32) (natAt_left h)

theorem word32At_right (h : l.length ≤ i) : word32At (l ++ m) i = word32At m (i - l.length) :=
  congrArg (BitVec.ofNat 32) (natAt_right h)

theorem byteAt_right_add {k : Nat} (h : l.length ≤ k) : byteAt (l ++ m) (k + i) = byteAt m (k - l.length + i) := by
  rw [byteAt_right (Nat.le_add_right_of_le h), Nat.sub_add_comm h]

theorem word32At_right_add {k : Nat} (h : l.length ≤ k) :
    word32At (l ++ m) (k + i) = word32At m (k - l.length + i) := by
  rw [word32At_right (Nat.le_add_right_of_le h), Nat.sub_add_comm h]

theorem word64At_left (h : i + 8 ≤ l.length) : word64At (l ++ m) i = word64At l i :=
  congrArg (BitVec.ofNat 64) (natAt_left h)

theorem word64At_right (h : l.length ≤ i) : word64At (l ++ m) i = word64At m (i - l.length) :=
  congrArg (BitVec.ofNat 64) (natAt_right h)

end

/-! ### The bytes of one value -/

theorem byteAt_cons_zero (a : Byte) (l : List Byte) : byteAt (a :: l) 0 = a := rfl

theorem byteAt_cons_one (a b : Byte) (l : List Byte) : byteAt (a :: b :: l) 1 = b := rfl

theorem byteAt_cons_two (a b c : Byte) (l : List Byte) : byteAt (a :: b :: c :: l) 2 = c := rfl

theorem byteAt_bytes8 (n : Nat) : byteAt (bytes8 n) 0 = BitVec.ofNat 8 n := rfl

theorem byteAt_toList {n : Nat} (v : Vector Byte n) {i : Nat} (h : i < n) : byteAt v.toList i = v[i] :=
  (byteAt_of_lt (by rw [Vector.length_toList]; exact h)).trans (Vector.getElem_toList _)

theorem byteAt_replicate_zero (n i : Nat) : byteAt (List.replicate n 0) i = 0 := by
  by_cases h : i < n
  · rw [byteAt_of_lt (by rw [List.length_replicate]; exact h), List.getElem_replicate]
  · exact byteAt_of_length_le (by rw [List.length_replicate]; exact Nat.le_of_not_lt h)

theorem flagByte_eq (b : Bool) : flagByte b = if b = true then 1 else 0 := rfl

/-! ### The twenty bytes of a line -/

section
variable {x : LineCtl} {l m : List Byte} {i : Nat}

theorem LineCtl.laidOut_left (h : i + 20 ≤ l.length) : x.laidOut (l ++ m) i ↔ x.laidOut l i := by
  unfold LineCtl.laidOut
  rw [byteAt_left (by omega), byteAt_left (by omega), word16At_left (by omega), word16At_left (by omega),
    word16At_left (by omega), word16At_left (by omega), word16At_left (by omega), word16At_left (by omega),
    word16At_left (by omega), word16At_left (by omega), word16At_left (by omega)]

theorem LineCtl.laidOut_right (h : l.length ≤ i) : x.laidOut (l ++ m) i ↔ x.laidOut m (i - l.length) := by
  have beyond (n : Nat) : l.length ≤ i + n := Nat.le_add_right_of_le h
  simp only [LineCtl.laidOut, byteAt_right h, byteAt_right (beyond _), word16At_right (beyond _), Nat.sub_add_comm h]

end

theorem LineCtl.blockBytes_laidOut (x : LineCtl) : x.laidOut x.blockBytes 0 := by
  unfold LineCtl.laidOut LineCtl.blockBytes
  simp only [List.append_assoc]
  simp only [byteAt_right, byteAt_left, word16At_right, word16At_left, bytes8_length, bytes16_length, List.length_cons,
    List.length_nil, word16At_bytes16, byteAt_bytes8, byteAt_cons_zero, Nat.reduceLeDiff, Nat.reduceSub, Nat.zero_add,
    Nat.le_refl, Nat.lt_add_one, and_true]

/-! ### Arrays of records of one size -/

section
variable {α : Type} {f : α → List Byte} {n : Nat} (size : ∀ x, (f x).length = n)
include size

/-- A field of the `j`-th record of an array is that field of the record by itself. -/
theorem natAt_flatMap {l : List α} {j i w : Nat} (hj : j < l.length) (hi : i + w ≤ n) :
    natAt (l.flatMap f) (n * j + i) w = natAt (f l[j]) i w := by
  induction l generalizing j with
  | nil => exact absurd hj (Nat.not_lt_zero j)
  | cons x xs ih =>
    rw [List.flatMap_cons]
    cases j with
    | zero => rw [Nat.mul_zero, Nat.zero_add, natAt_left (by rw [size]; exact hi)]; rfl
    | succ j =>
      rw [Nat.mul_succ, natAt_right (by rw [size]; omega), size,
        show n * j + n + i - n = n * j + i by omega, ih (Nat.lt_of_succ_lt_succ hj)]
      rfl

theorem word16At_flatMap {l : List α} {j i : Nat} (hj : j < l.length) (hi : i + 2 ≤ n) :
    word16At (l.flatMap f) (n * j + i) = word16At (f l[j]) i :=
  congrArg (BitVec.ofNat 16) (natAt_flatMap size hj hi)

theorem word32At_flatMap {l : List α} {j i : Nat} (hj : j < l.length) (hi : i + 4 ≤ n) :
    word32At (l.flatMap f) (n * j + i) = word32At (f l[j]) i :=
  congrArg (BitVec.ofNat 32) (natAt_flatMap size hj hi)

end

/-! ### The key slot states, two bits a slot -/

theorem KeySlot.code_lt (x : KeySlot) : x.code.toNat < 4 := by
  cases x with
  | empty => decide
  | valid k => exact (by decide : (1 : Byte).toNat < 4)
  | invalid => decide

/-- The number whose digits to the base 4 are the codes of the slots, the first lowest. -/
def slotDigits (l : List KeySlot) : Nat := l.foldr (fun x n => x.code.toNat + 4 * n) 0

theorem slotDigits_cons (x : KeySlot) (l : List KeySlot) :
    slotDigits (x :: l) = x.code.toNat + 4 * slotDigits l := rfl

theorem KeyStore.stateBits_eq (k : KeyStore) : k.stateBits = slotDigits k.slots.toList := rfl

theorem slotDigits_lt (l : List KeySlot) : slotDigits l < 4 ^ l.length := by
  induction l with
  | nil => decide
  | cons x xs ih =>
    have := x.code_lt
    rw [slotDigits_cons, List.length_cons, Nat.pow_succ]
    omega

theorem slotDigits_digit {l : List KeySlot} {i : Nat} (h : i < l.length) :
    slotDigits l / 4 ^ i % 4 = (l[i]).code.toNat := by
  induction l generalizing i with
  | nil => exact absurd h (Nat.not_lt_zero i)
  | cons x xs ih =>
    have := x.code_lt
    rw [slotDigits_cons]
    cases i with
    | zero => rw [Nat.pow_zero, Nat.div_one, List.getElem_cons_zero]; omega
    | succ i =>
      rw [Nat.pow_succ', ← Nat.div_div_eq_div_mul, show (x.code.toNat + 4 * slotDigits xs) / 4 = slotDigits xs by omega,
        ih (Nat.lt_of_succ_lt_succ h), List.getElem_cons_succ]

/-- The sixteen states fit into the four bytes they are written in. -/
theorem KeyStore.word32At_stateBits (k : KeyStore) :
    (word32At (leBytes 4 k.stateBits) 0).toNat = slotDigits k.slots.toList := by
  have bound := slotDigits_lt k.slots.toList
  rw [Vector.length_toList] at bound
  rw [word32At, natAt_leBytes, BitVec.toNat_ofNat, k.stateBits_eq]
  omega

/-! ### The flags byte -/

/-- The flags byte of four flags, the lowest bit first. -/
def flagsOf (a b c d : Bool) : Byte :=
  BitVec.ofNat 8 ((if a then 1 else 0) + (if b then 2 else 0) + (if c then 4 else 0) + (if d then 8 else 0))

theorem flagsOf_bits : ∀ a b c d : Bool, (flagsOf a b c d).getLsbD 0 = a ∧ (flagsOf a b c d).getLsbD 1 = b ∧
    (flagsOf a b c d).getLsbD 2 = c ∧ (flagsOf a b c d).getLsbD 3 = d ∧ (flagsOf a b c d).toNat < 16 := by decide

theorem Position.flagBits_eq (x : Position) :
    x.flagBits = flagsOf x.wear x.owed x.unconfirmed (decide (x.missed ≠ 0)) := by
  unfold Position.flagBits flagsOf
  by_cases h : x.missed = 0 <;> simp [h]

end Sys2Proof.Machine
end
section
/-! PROOFS. The records posted and their layouts (R177, R178, R192, R193; Tables 2, 3 and 5 of Formats). -/
namespace Sys2Proof.Machine

/-! ### Table 5: a position -/

theorem Position.halfBytes_laidOut (x : Position) : x.halfLaidOut x.halfBytes := by
  have flags := flagsOf_bits x.wear x.owed x.unconfirmed (decide (x.missed ≠ 0))
  rw [← x.flagBits_eq] at flags
  obtain ⟨wear, owed, unconfirmed, missed, small⟩ := flags
  refine ⟨x.halfBytes_length, ?_⟩
  unfold Position.halfBytes
  simp only [List.append_assoc]
  simp only [byteAt_right, byteAt_left, word16At_right, word16At_left, word32At_right, word32At_left, word64At_right,
    word64At_left, bytes16_length, bytes32_length, bytes64_length, List.length_cons, List.length_nil, word16At_bytes16,
    word32At_bytes32, word64At_bytes64, byteAt_cons_zero, byteAt_cons_one, Nat.reduceLeDiff, Nat.reduceSub,
    Nat.reduceAdd, Nat.zero_add, Nat.zero_lt_succ, Nat.lt_add_one, Nat.le_refl, wear, owed, unconfirmed, missed, small,
    true_and, and_true]
  rfl

theorem Position.extensionBytes_laidOut (x : Position) : x.extensionLaidOut x.extensionBytes := by
  refine ⟨x.extensionBytes_length, ?_⟩
  unfold Position.extensionBytes
  have unassigned : ∀ i, 0x13 ≤ i → byteAt (bytes32 x.dropped ++ bytes32 x.cycleNumber ++ bytes32 x.cyclesCompleted ++
      bytes16 x.overruns ++ bytes16 x.examined ++ bytes16 x.appliedEdition ++ [lineErrorCode x.lastLineError] ++
      List.replicate 13 0) i = 0 := fun i hi => (byteAt_right hi).trans (byteAt_replicate_zero _ _)
  simp only [List.append_assoc] at unassigned ⊢
  simp only [byteAt_right, byteAt_left, word16At_right, word16At_left, word32At_right, word32At_left, bytes16_length,
    bytes32_length, List.length_cons, List.length_nil, word16At_bytes16, word32At_bytes32, byteAt_cons_zero,
    Nat.reduceLeDiff, Nat.reduceSub, Nat.zero_add, Nat.lt_add_one, Nat.le_refl, true_and]
  exact unassigned

/-! ### Table 3: the device block -/

theorem State.calBytes_laidOut (s : State) : s.calLaidOut s.calBytes := by
  have size (c : CalRecord) : (bytes16 c.offset ++ bytes32 c.gain).length = 6 := rfl
  refine ⟨s.calBytes_length, fun c => ?_⟩
  have inside : c.val < s.meas.cal.toList.length := by rw [Vector.length_toList]; exact c.isLt
  unfold State.calBytes
  constructor
  · have field := word16At_flatMap size (i := 0) inside (by omega)
    rw [word16At_left (Nat.le_of_eq (bytes16_length _).symm), word16At_bytes16] at field
    exact field
  · have field := word32At_flatMap size (i := 2) inside (by omega)
    rw [word32At_right (Nat.le_of_eq (bytes16_length _)), bytes16_length, Nat.sub_self, word32At_bytes32] at field
    exact field

theorem State.blockBytes_laidOut (s : State) : s.blockLaidOut s.blockBytes := by
  have slots (k : Fin 16) : k.val < s.keys.slots.toList.length := by rw [Vector.length_toList]; exact k.isLt
  have pulses (j : InputId) : j.val < s.pulses.toList.length := by rw [Vector.length_toList]; exact j.isLt
  have pulseAt (j : InputId) : word32At (s.pulses.toList.flatMap bytes32) (4 * j.val) = s.pulses[j.val] := by
    have field := word32At_flatMap bytes32_length (i := 0) (pulses j) (by omega)
    rwa [Nat.add_zero, word32At_bytes32] at field
  have slotAt (k : Fin 16) :
      BitVec.ofNat 8 ((word32At (leBytes 4 s.keys.stateBits) 0).toNat / 4 ^ k.val % 4) =
        (s.keys.slots[k.val]).code := by
    rw [s.keys.word32At_stateBits, slotDigits_digit (slots k), BitVec.ofNat_toNat, BitVec.setWidth_eq]
    rfl
  refine ⟨s.blockBytes_length, ?_⟩
  unfold State.blockBytes
  simp only [List.append_assoc]
  simp only [byteAt_right, byteAt_left, byteAt_right_add, word16At_right, word16At_left, word32At_right, word32At_left,
    word32At_right_add, LineCtl.laidOut_left, LineCtl.laidOut_right, bytes8_length, bytes16_length, bytes32_length,
    leBytes_length, LineCtl.blockBytes_length, Vector.length_toList, List.length_cons, List.length_nil,
    word16At_bytes16, word32At_bytes32, byteAt_cons_zero, byteAt_cons_one, byteAt_cons_two, byteAt_bytes8,
    byteAt_toList, flagByte_eq, LineCtl.blockBytes_laidOut, slotAt, pulseAt, Fin.is_lt,
    Nat.reduceLeDiff, Nat.reduceSub, Nat.reduceAdd, Nat.zero_add, Nat.zero_lt_succ, Nat.reduceLT, Nat.lt_add_one,
    Nat.le_refl, true_and, implies_true, and_true]
  exact ⟨rfl, rfl⟩

/-! ### The postings -/

theorem State.postBlock_eq (s : State) : s.postBlock = { s with
    blockEdition := s.blockEdition + 2, blockDirty := false, mem := s.postBlock.mem,
    attention := s.attention ||| 0b0001 } := rfl

theorem State.postBlock_bytes (s : State) : s.postBlock.mem.bytes 0x0000 128 = s.postBlock.blockBytes := by
  let t := { s with blockEdition := s.blockEdition + 2, blockDirty := false }
  have written := Memory.bytes_write s.mem 0x0000 t.blockBytes
    (by rw [State.blockBytes_length]; exact (by decide : 0 + 128 ≤ Memory.size))
  rw [State.blockBytes_length] at written
  have apart := Memory.bytes_write_ne (s.mem.write 0x0000 t.blockBytes) 0x0000 128 calBlockAddr t.calBytes
    (by decide) (.inr (by decide))
  exact apart.trans written

theorem State.postBlock_calBytes (s : State) : s.postBlock.mem.bytes 0x0D00 144 = s.postBlock.calBytes := by
  let t := { s with blockEdition := s.blockEdition + 2, blockDirty := false }
  have written := Memory.bytes_write (s.mem.write deviceBlockAddr t.blockBytes) 0x0D00 t.calBytes
    (by rw [State.calBytes_length]; exact (by decide : 0x0D00 + 144 ≤ Memory.size))
  rw [State.calBytes_length] at written
  exact written

theorem State.postHalf_eq (s : State) (p : PosId) : s.postHalf p = { s.setPos p
      { s.pos p with edition := (s.pos p).edition + 2, pulseDirty := false } with
    mem := (s.postHalf p).mem, attention := s.attention ||| 0b0001 } := rfl

theorem State.postHalf_extension (s : State) (p : PosId) :
    (s.postHalf p).mem.bytes (0x1800 + 32 * p.val) 32 = ((s.postHalf p).pos p).extensionBytes := by
  have hp := p.isLt
  rw [State.pos_postHalf]
  unfold State.postHalf
  dsimp only
  have written := Memory.bytes_write (s.mem.write (stateHalfAddr p)
      ({ s.pos p with edition := (s.pos p).edition + 2, pulseDirty := false } : Position).halfBytes) (extensionAddr p)
    ({ s.pos p with edition := (s.pos p).edition + 2, pulseDirty := false } : Position).extensionBytes
    (by rw [Position.extensionBytes_length]; simp only [extensionAddr, Memory.size]; omega)
  rwa [Position.extensionBytes_length] at written

theorem codesOfTable2_holds : codesOfTable2 :=
  ⟨rfl, rfl, rfl, fun _ => ⟨rfl, rfl, rfl, rfl⟩, rfl, rfl, rfl, rfl, rfl, rfl, rfl, fun _ => rfl, rfl, rfl⟩

/-- Settles O12: what a posting writes read back from the memory, and each record split into its fields. -/
theorem recordsPosted : Obligations.RecordsPosted := by
  unfold Obligations.RecordsPosted
  refine ⟨fun s => ⟨s.postBlock_eq, s.postBlock_bytes, s.postBlock_calBytes, fun a ha below cal => ?_⟩, fun s p => ?_,
    fun s => ⟨s.blockBytes_laidOut, s.calBytes_laidOut⟩, fun x => ⟨x.halfBytes_laidOut, x.extensionBytes_laidOut⟩,
    codesOfTable2_holds⟩
  · exact postBlock_read s ha (Nat.le_of_not_lt below) cal
  · have half := s.postHalf_bytes p
    have extension := s.postHalf_extension p
    rw [State.pos_postHalf] at half extension
    refine ⟨s.postHalf_eq p, half, extension, fun a ha outHalf outExtension => postHalf_read s p ha ?_ ?_⟩
    · simp only [stateHalfAddr, positionAddr]
      omega
    · simp only [extensionAddr]
      omega

end Sys2Proof.Machine
end
